-- ==== Sys2Proof/Word.lean ====
section
/-! DEFINITION. The widths of the Avlith 512X (spec/00_scope.md R3, R4): bytes, 32-bit words, 64-bit words. -/

namespace Sys2Proof

/-- One byte of memory. -/
abbrev Byte := BitVec 8

/-- A V register, a K word, a 32-bit result. -/
abbrev Word := BitVec 32

/-- An S register, an address, a program counter. -/
abbrev DWord := BitVec 64

end Sys2Proof
end

