-- ==== Sys2Proof/Config.lean ====
section
/-! DEFINITION. What an implementation fixes and what the manual leaves open: opaque constants, with no body, so that
nothing can be proved of a value they take. -/

namespace Sys2Proof.Config

/-- The free choices of a run (log 6): numbers nothing constrains. The first argument is the step, `State.freeCtr`; the second
tells the choices of one step apart, each by its name. -/
opaque free : Nat → List Nat → Nat

/-- Initial contents of a local grant (spec/01_address_spaces.md R27 calls them unspecified): the byte at an offset of the
grant whose seed is given (log 7). -/
opaque freeLocal : Nat → Nat → Byte

/-- What a special function answers for an input, before the bound of spec/08_number_formats.md R193 is applied (log 8).
The first argument is the opcode, the second the operand's bits: R265 says that one instruction word and one input give
the same result bits on every core. -/
opaque sfu : Nat → Nat → Nat

/-- SERIAL, fused at MANUFACTURE (spec/20_device_management.md R403). -/
opaque serial : BitVec 64

/-- The coordinates of the identity key's public point on P-521 (R402). -/
opaque identityX : BitVec 521
opaque identityY : BitVec 521

/-- SHA-512 of a byte string (R401, R404), as a 512-bit number. -/
opaque sha512 : List Byte → BitVec 512

/-- The ECDSA P-521 signature (r, s) the identity key makes over the bytes (R404); a key, so a function of the bytes and
of how many signatures came before. -/
opaque sign : Nat → List Byte → BitVec 528 × BitVec 528

/-- The vendor's keys (R405). -/
inductive VendorKey where
  | manufacturing | development | production
  deriving DecidableEq, Repr

/-- The hash of a vendor's key, as the device has it fused (R401, R405). -/
opaque fusedHash : VendorKey → BitVec 512

/-- Whether an ECDSA signature (r, s) on P-521 verifies for a digest, under the key with a hash (R401, R405). -/
opaque verify : BitVec 512 → BitVec 512 → BitVec 528 → BitVec 528 → Bool

/-- The firmware image that a bring-up finds (R401), by number of resets. -/
opaque firmwareImage : Nat → List Byte

/-- The number that names a unit in a DEVICE_ERROR notice (R397): spec/18_traps_and_faults.md R380 lists the units and gives
no numbers. -/
opaque errUnit : Nat → BitVec 32

end Sys2Proof.Config
end

