-- ==== Sys2Proof/Syntax.lean ====
section
/-! DEFINITION. The instructions of Fjotrum ISA version 1 and the steps of the other agents: one constructor of `Instr`
per row of spec/opcode_table.json. -/

namespace Sys2Proof

/-- Type codes (spec/09_encoding_and_opcode_map.md R208). -/
inductive Ty where
  | b32 | b64 | i8 | i16 | i32 | i64 | n8 | n16 | n32 | n64 | f64 | f32 | f16 | bf16 | e4m3 | e5m2 | e2m1 | ps8 | b128
  deriving DecidableEq, Repr

/-- Rounding modes (R182, R208). -/
inductive Rnd where
  | rn | rz | ru | rd
  deriving DecidableEq, Repr

/-- Ordering (R119, R208). -/
inductive Ord where
  | rlx | acq | rel | ar
  deriving DecidableEq, Repr

/-- Scope (R112, R208). -/
inductive Scope where
  | th | wv | tm | cl | pk | sy
  deriving DecidableEq, Repr

/-- Address space (R6, R208). -/
inductive Space where
  | g | l | k
  deriving DecidableEq, Repr

/-- Second type of FDOT2 and FDOT4 (R209). -/
inductive Src2 where
  | f16 | bf16 | e4m3 | e5m2
  deriving DecidableEq, Repr

/-- Special registers (R203), in order of index from 256 to 285. -/
inductive Special where
  | threadId | laneId | waveId | issueLane | issueMask
  | teamIdX | teamIdY | teamIdZ | teamDimX | teamDimY | teamDimZ | gridDimX | gridDimY | gridDimZ
  | gridId | depth | clusterId | coreId | dieId | ctxId | cycles | iter | stage | taskArg
  | vregs | localSize | trapCause | trapPc | trapInfo | deviceId
  deriving DecidableEq, Repr

/-- An operand field (R197): a V register, an S register, a special register, a word of constant bank 0, or a 9-bit
two's-complement literal. -/
inductive Operand where
  | v (i : BitVec 9)
  | s (i : BitVec 7)
  | sr (r : Special)
  | k (i : BitVec 9)
  | lit (x : BitVec 9)
  deriving DecidableEq, Repr

/-- An operand field that an instruction does not use holds the literal 0 (R201: 0x600). -/
abbrev Operand.unused : Operand := .lit 0

/-- The guard code GP, GN (R204). -/
inductive Guard where
  | always
  | pred (n : Fin 7) (neg : Bool)
  deriving DecidableEq, Repr

/-- Retain (R205). It changes timing only. -/
inductive Retain where
  | none | a | b | c
  deriving DecidableEq, Repr

/-- The eleven MOD bits, read by the layout of the opcode's group (R209). A field the group does not have holds the
value given here. `bit` is EXC, BYP or SLOT. -/
structure Mods where
  ty : Ty := .b32
  src : Ty := .b32
  src2 : Src2 := .f16
  rnd : Rnd := .rn
  sat : Bool := false
  ord : Ord := .rlx
  sc : Scope := .th
  dsp : Space := .g
  ssp : Space := .g
  bit : Bool := false
  deriving DecidableEq, Repr

/-- The fields of one instruction word besides LEN and OP (R195). -/
structure Fields where
  guard : Guard := .always
  marker : Bool := false
  retain : Retain := .none
  fn : BitVec 3 := 0
  mods : Mods := {}
  d : Operand := .unused
  a : Operand := .unused
  b : Operand := .unused
  c : Operand := .unused
  x21 : BitVec 21 := 0
  l32 : BitVec 32 := 0
  deriving DecidableEq, Repr

/-- A link that can fail and come up (R391, R389): a fabric port's, or that of an on-chip switch (0 to 31 leaves, 32 to 47
middles) at one of its ports. -/
inductive Link where
  | fabric (port : Nat)
  | chip (switch port : Nat)
  deriving DecidableEq, Repr

/-- The unit named by a DEVICE_ERROR (R380). -/
inductive ErrUnit where
  | admission | parcelTable | polderTable | dispatcher | launchUnit | network | junction
  /-- A GDDR 7 device link, of the controller 4 * die + number (R33). -/
  | dramLink (controller : Nat)
  deriving DecidableEq, Repr

/-- Whose translation buffer: a core's, a cluster's or a die's, by package-wide number (R15). -/
inductive TlbUnit where
  | core (n : Nat)
  | cluster (n : Nat)
  | die (n : Nat)
  deriving DecidableEq, Repr

/-- The place of an uncorrectable error (R380). -/
inductive ErrPlace where
  | registerFile (uid : Nat)
  | localMem (uid offset : Nat)
  | engineState (uid : Nat)
  | l1Copy (cluster line : Nat)
  | tlbEntry (unit : TlbUnit) (ctx page : Nat)
  | cleanLine (line : Nat)
  | sector (addr : Nat)
  | device (u : ErrUnit)
  deriving DecidableEq, Repr

/-- The command header of R394, less CMD and LEN; the port on which the message arrived and the UE address that sent it (R393,
R397). A UE access carries the same (R133). -/
structure CmdHdr where
  tag : Nat
  ctx : Nat
  port : Nat
  host : Nat
  deriving DecidableEq, Repr

/-- How an operation of another device reached this one: the port, and the waybill as delivered (R387, R393); and the context it
names (R342). -/
structure Via where
  port : Nat
  waybill : BitVec 256
  ctx : Nat
  deriving DecidableEq, Repr

/-- Where an AMSG that arrives comes from: another device, or a context of this one, by the local form (R398). -/
inductive AmsgFrom where
  | other (via : Via)
  | own (ctx : Nat)
  deriving DecidableEq, Repr

/-- One constructor per row of spec/opcode_table.json: first the instructions of the ISA, with the fields of their word,
then the steps of the other agents, with what each acts on. -/
inductive Instr where
  -- control and system (R238)
  | nop (f : Fields)
  | bra (f : Fields)
  | brx (f : Fields)
  | call (f : Fields)
  | callx (f : Fields)
  | ret (f : Fields)
  | exit (f : Fields)
  | reform (f : Fields)
  | reconv (f : Fields)
  | yield (f : Fields)
  | trap (f : Fields)
  | trapretResume (f : Fields)
  | trapretRetry (f : Fields)
  | trapretSkip (f : Fields)
  | assert (f : Fields)
  | pause (f : Fields)
  | sreg (f : Fields)
  | swreg (f : Fields)
  -- integer, logic, predicates (R244 to R253)
  | iadd (f : Fields)
  | isub (f : Fields)
  | imul (f : Fields)
  | imad (f : Fields)
  | imulh (f : Fields)
  | imin (f : Fields)
  | imax (f : Fields)
  | iabs (f : Fields)
  | ineg (f : Fields)
  | isad (f : Fields)
  | iadd3 (f : Fields)
  | lea (f : Fields)
  | icmp (f : Fields)
  | isel (f : Fields)
  | mov (f : Fields)
  | movl (f : Fields)
  | and (f : Fields)
  | or (f : Fields)
  | xor (f : Fields)
  | not (f : Fields)
  | andn (f : Fields)
  | lop3 (f : Fields)
  | shl (f : Fields)
  | shr (f : Fields)
  | shra (f : Fields)
  | rot (f : Fields)
  | funnel (f : Fields)
  | bfe (f : Fields)
  | bfi (f : Fields)
  | popc (f : Fields)
  | clz (f : Fields)
  | brev (f : Fields)
  | plop (f : Fields)
  | pmov (f : Fields)
  | cvti (f : Fields)
  | idot4 (f : Fields)
  | prmt (f : Fields)
  -- cross-lane (R254 to R257)
  | shfl (f : Fields)
  | vote (f : Fields)
  | ballot (f : Fields)
  | wreduce (f : Fields)
  | wscan (f : Fields)
  | matchOp (f : Fields)
  | elect (f : Fields)
  -- floating point (R262 to R264)
  | fadd (f : Fields)
  | fsub (f : Fields)
  | fmul (f : Fields)
  | fma (f : Fields)
  | fmin (f : Fields)
  | fmax (f : Fields)
  | fcmp (f : Fields)
  | fclass (f : Fields)
  | fscale (f : Fields)
  | frnd (f : Fields)
  | fsgn (f : Fields)
  | hfma2 (f : Fields)
  | hadd2 (f : Fields)
  | hmul2 (f : Fields)
  | fdot2 (f : Fields)
  | fdot4 (f : Fields)
  -- special functions (R265)
  | rcps (f : Fields)
  | rsqs (f : Fields)
  | rcp (f : Fields)
  | rsq (f : Fields)
  | sqrt (f : Fields)
  | exp2 (f : Fields)
  | log2 (f : Fields)
  | sinp (f : Fields)
  | cosp (f : Fields)
  | tanh (f : Fields)
  -- conversions (R266 to R269)
  | cvtf (f : Fields)
  | cvtfi (f : Fields)
  | cvtif (f : Fields)
  | pack (f : Fields)
  | unpack (f : Fields)
  | cvttd (f : Fields)
  -- memory (R271)
  | ld (f : Fields)
  | st (f : Fields)
  | ldacq (f : Fields)
  | strel (f : Fields)
  | atom (f : Fields)
  | atomc (f : Fields)
  | atomf (f : Fields)
  | red (f : Fields)
  | fence (f : Fields)
  | fencer (f : Fields)
  | pref (f : Fields)
  -- parcels, polders, courier, slots, guards, embargoes (R291)
  | pdecl (f : Fields)
  | penter (f : Fields)
  | pleave (f : Fields)
  | pfree (f : Fields)
  | pstat (f : Fields)
  | lease (f : Fields)
  | unlease (f : Fields)
  | lstat (f : Fields)
  | cpy (f : Fields)
  | cpy2d (f : Fields)
  | cpytd (f : Fields)
  | seal (f : Fields)
  | waitb (f : Fields)
  | kvcommit (f : Fields)
  | slotinit (f : Fields)
  | slotres (f : Fields)
  | slottake (f : Fields)
  | slotdone (f : Fields)
  | slotpeek (f : Fields)
  | slotfill (f : Fields)
  | gres (f : Fields)
  | gclr (f : Fields)
  | embq (f : Fields)
  -- tensor descriptors and the matrix engine (R311)
  | tdset (f : Fields)
  | tdget (f : Fields)
  | mloadw (f : Fields)
  | mswap (f : Fields)
  | mstream (f : Fields)
  | mzero (f : Fields)
  | mstore (f : Fields)
  | mwait (f : Fields)
  | mmask (f : Fields)
  | mstat (f : Fields)
  | mxop (f : Fields)
  | mresume (f : Fields)
  -- barriers, events, tasks, stages, launch (R328)
  | bar (f : Fields)
  | bara (f : Fields)
  | barw (f : Fields)
  | evset (f : Fields)
  | evclr (f : Fields)
  | evwait (f : Fields)
  | evread (f : Fields)
  | taskpost (f : Fields)
  | taskend (f : Fields)
  | sofput (f : Fields)
  | sofget (f : Fields)
  | stloop (f : Fields)
  | stget (f : Fields)
  | stadv (f : Fields)
  | stjmp (f : Fields)
  | waitl (f : Fields)
  | stend (f : Fields)
  | stqry (f : Fields)
  | launch (f : Fields)
  | launchdep (f : Fields)
  | join (f : Fields)
  | reggrow (f : Fields)
  | regshrk (f : Fields)
  -- fabric (R328)
  | wbsend (f : Fields)
  | amsg (f : Fields)
  | rstore (f : Fields)
  | rsig (f : Fields)
  | wbchk (f : Fields)
  | tmapq (f : Fields)
  -- steps of the core and of the memory system
  | resultWriteback (uid tid n : Nat)
  | l1FillArrival (id : Nat)
  | homeSliceWriteArrival (id : Nat)
  | homeSliceReadArrival (id : Nat)
  | homeSliceAtomicArrival (id : Nat)
  | gddr7ReadReturn (id : Nat)
  | storeAck (id : Nat)
  | grantRequest (id : Nat)
  | recall (id : Nat)
  | releaseNotice (id : Nat)
  | grant (id : Nat)
  | walkComplete (die ctx page : Nat)
  -- steps of the grouping stage, barriers and tasks
  | mereageRelease (core uid pc : Nat)
  | pauseExpire (uid tid : Nat)
  | barrierUnreachable (uid : Nat)
  | taskGather (cluster : Nat)
  -- steps of the PAC and the polder table
  | fillComplete (parcel : Nat)
  | evictionComplete (parcel : Nat)
  | leaseExpiry (polder : Nat)
  -- steps of the engines
  | courierCommandStart (core : Nat)
  | slotBytesLanded (cmd bytes : Nat)
  | courierCommandComplete (cmd : Nat)
  | courierCommandFault (cmd : Nat)
  | matrixCommandStart (core : Nat)
  | matrixCommandComplete (core : Nat)
  | matrixCommandFault (core : Nat)
  | assistComplete (core : Nat)
  -- steps of the scheduler
  | teamDispatch (die : Nat)
  | swapOut (die : Nat)
  | swapIn (die : Nat)
  | teamMigration (src dst : Nat)
  | launchAccept (cluster : Nat)
  | constantCopy (gid : Nat)
  | dlrDrain (ctx : Nat)
  | stagingRetry (cluster ctx : Nat)
  | gridComplete (gid : Nat)
  -- steps of traps, reports, pre-emption and containment
  | reportDelivery (ctx : Nat)
  | handlerOverrun (uid tid : Nat)
  | preemptReset (ctx : Nat)
  | preemptComplete (ctx : Nat)
  | uncorrectable (p : ErrPlace)
  | containmentComplete (ctx : Nat)
  -- steps of the fabric
  | remoteAck (id : Nat)
  | fabricNack (id reason : Nat)
  | remoteStoreArrival (via : Via) (va : Nat) (data : List Byte)
  | wbsendArrival (via : Via) (va : Nat) (data : List Byte)
  | rsigArrival (via : Via) (va addend : Nat)
  | amsgArrival (source : AmsgFrom) (va h : Nat) (payload : List Byte)
  | packetForward (switch port : Nat)
  | packetAgeTick (id : Nat)
  | linkFailure (l : Link)
  | linkUp (l : Link)
  -- steps of the host
  | hostUeWrite (h : CmdHdr) (va : Nat) (data : List Byte)
  | hostUeRead (h : CmdHdr) (va len : Nat)
  | hostLaunch (h : CmdHdr) (body : List Byte)
  | contextLoad (h : CmdHdr) (body : List Byte)
  | contextUnload (h : CmdHdr) (body : List Byte)
  | contextResume (h : CmdHdr) (body : List Byte)
  | contextKill (h : CmdHdr) (body : List Byte)
  | preempt (h : CmdHdr) (body : List Byte)
  | flip (h : CmdHdr) (body : List Byte)
  | xlateInval (h : CmdHdr) (body : List Byte)
  | pinBudget (h : CmdHdr) (body : List Byte)
  | telemetry (h : CmdHdr) (body : List Byte)
  | portMode (h : CmdHdr) (body : List Byte)
  | nocAvoid (h : CmdHdr) (body : List Byte)
  | amLoad (h : CmdHdr) (body : List Byte)
  | identity (h : CmdHdr) (body : List Byte)
  | setId (h : CmdHdr) (body : List Byte)
  | attest (h : CmdHdr) (body : List Byte)
  | lifecycle (h : CmdHdr) (body : List Byte)
  | hostReset (h : CmdHdr) (body : List Byte)
  | unknownCommand (cmd : Nat) (h : CmdHdr) (body : List Byte)
  -- steps of power and bring-up
  | powerGood
  | bringUpStepDone (ok : Bool)
  | powerThrottle (on : Bool)
  | junctionOvertemp
  | inputVoltageFault
  deriving DecidableEq, Repr

end Sys2Proof
end

