-- ==== Sys2Proof/Machine/State.lean ====
section
/-! DEFINITION. The state of one package: plain data, holding every piece of state the spec names (INVENTORY.md lists each
with its rule). Objects that come and go (grids, teams, waves, messages, commands) carry numbers of their own. -/

namespace Sys2Proof.Machine

/-! ## Threads, waves, teams -/

/-- Where a result goes. `iter` and `stage` are the special registers that stage instructions change, `vregs` and `localSize`
those that REGGROW and REGSHRK change (R203, R207, R329, R341). -/
inductive Dest where
  | v (i : Nat)
  | s (i : Nat)
  | p (i : Nat)
  | iter
  | stage
  | vregs
  | localSize
  deriving DecidableEq, Repr

/-- One register write: of a V or S register, of a predicate (0 or 1), of ITER. STAGE reads a counter of the team's board, VREGS
and LOCALSIZE the team's allotment: for these the value is what stood before. -/
structure RegWrite where
  dest : Dest
  val : Nat
  deriving DecidableEq, Repr

/-- The ordering kind of a page (R10). -/
inductive OrdKind where
  | rc | so | uo
  deriving DecidableEq, Repr

/-- The part of an access in one page, with the page's ordering kind (R115): the byte of the datum that comes first, its size,
and how many of its bytes have not arrived. -/
structure PendPage where
  kind : OrdKind
  first : Nat
  size : Nat
  left : Nat
  deriving DecidableEq, Repr

/-- A variable-latency result that is not yet written (R206, R207). `parts` counts the pieces of a loaded value that have
not arrived; with none, the result is bound and `writes` holds it. The access covers `size` bytes from `va`. -/
structure Pend where
  id : Nat
  writes : List RegWrite := []
  parts : Nat := 0
  acc : Nat := 0
  dst : Operand := .unused
  ty : Ty := .b32
  load : Bool := false
  va : Nat := 0
  size : Nat := 0
  pages : List PendPage := []
  /-- A home slice has refused a part: with the last part's answer, nothing is written (R276). -/
  refused : Bool := false
  deriving DecidableEq, Repr

/-- What a stage instruction does (R175), for the comparison of R175. -/
inductive StageOp where
  | adv (k : Nat)
  | jmp (s : Nat)
  | fin
  deriving DecidableEq, Repr

/-- A task or launch record that a thread posts to a cluster (R333, R338), as its staging buffer holds it (R363); with its launching
grid, and the physical pages of a launch's constant image as LAUNCH checked them (R350). -/
structure Staged where
  cluster : Nat
  ctx : Nat
  gid : Nat
  launch : Bool
  /-- Posted by a thread of another cluster (R333). -/
  far : Bool
  record : List Byte
  pages : List Nat := []
  /-- The handler has returned with RETRY (R363). -/
  retry : Bool := false
  deriving DecidableEq, Repr

/-- What a thread that has left its wave waits for (R159, R329). Destinations are kept with the wait. -/
inductive Wait where
  /-- PAUSE until the die's CYCLES (R240). -/
  | pause (stop : Nat)
  /-- RECONV (R164). -/
  | reconv
  /-- BAR and BARW: until a phase of a barrier is over (R165). -/
  | barrier (b phase : Nat)
  /-- BAR and BARA by a thread that has already arrived in the current phase (R165): then it arrives, and waits if BAR. -/
  | arrive (b phase : Nat) (stay : Bool)
  /-- EVWAIT (R332). -/
  | event (w m : Nat) (any : Bool) (d : Operand)
  /-- STLOOP that will start a loop (R173). -/
  | stloop (n w : Nat) (homewave : Bool)
  /-- STGET (R174). -/
  | stget (d : Operand)
  /-- STADV, STJMP or STEND in HOMEWAVE mode (R175); STGET that first retires is `thenGet`. -/
  | stage (op : StageOp) (thenGet : Option Operand)
  /-- WAITL (R174). -/
  | waitl (s : Nat)
  /-- PENTER (R62), or the first instruction's pre-entry (R351): the destination. -/
  | penter (d : Operand)
  | preenter
  /-- PENTER, or a pre-entry, whose request has ended: the result to write, or the trap to take (R64, R351). -/
  | penterDone (d : Operand) (val : Nat)
  | penterTrap (cause info : Nat)
  | preenterDone (val : Nat)
  /-- A courier command held for embargo entries or a queue entry (R295), with its result destination. -/
  | courier (cmd : Nat)
  /-- A KVCOMMIT's command held in the same way, with the new length that its result will show (R299). -/
  | kventer (cmd len : Nat) (d : Operand)
  /-- KVCOMMIT and SEAL held by the limit of 255 sealed batches (R95, R299). -/
  | kvcommit
  | seal (d : Operand)
  /-- WAITB (R96) and MWAIT (R323). -/
  | waitb (n : Nat) (sc : Scope) (d : Operand)
  | mwait (n : Nat) (sc : Scope) (d : Operand)
  /-- SLOTRES and SLOTTAKE (R109). -/
  | slotres (handle count : Nat) (d : Operand)
  | slottake (handle : Nat) (d : Operand)
  /-- A matrix command held for embargo entries or a queue entry (R312), and the rest of an MXOP block (R322). -/
  | matrix (cmds : List Nat) (count : Nat) (d : Operand)
  /-- JOIN (R340): the counter's virtual address. -/
  | join (va : Nat)
  /-- LAUNCH held by a full ring; TASKPOST and LAUNCH held by a full staging buffer, with the TRAPINFO of the ring's page that fails
  (R333, R338). -/
  | post (r : Staged) (fault : Option Nat) (d : Operand)
  /-- An idle thread of a task-host team (R334). -/
  | idle
  /-- REGGROW and REGSHRK (R341). -/
  | grow (shrink : Bool) (vregs bytes : Nat) (d : Operand)
  /-- An instruction that first releases (R132) at a scope: when the release has taken effect, the thread issues it again. -/
  | release (sc : Scope)
  /-- Its own wait is over; the results that a marker covers are not bound yet (R206). -/
  | results
  deriving DecidableEq, Repr

/-- The place that a thread has left to wait: its wave, the moment of the instruction, its lane, and how many threads the wave had then.
A wave whose threads all leave in one instruction and wake together goes on as it was (log 17). -/
structure Seat where
  wid : Nat
  moment : Nat
  lane : Nat
  size : Nat
  deriving DecidableEq, Repr

/-- A blocked thread: what it waits for, the length of the instruction it waits in, when it began (a number of the model's
sequence and the die's CYCLES), and, if the instruction is marked, the results that were not bound (R206). -/
structure Blocked where
  wait : Wait
  len : Nat
  since : Nat
  cycle : Nat
  marker : Option (List Nat) := none
  seat : Option Seat := none
  deriving DecidableEq, Repr

/-- The four words of a tensor descriptor (R308). -/
abbrev Td := DWord × DWord × DWord × DWord

/-- A span of memory that an engine command writes: global addresses in a context, or local offsets. -/
structure Span where
  loc : Bool
  start : Nat
  len : Nat
  deriving DecidableEq, Repr

/-- A range fence that has not retired: its number, range, scope, and whether it releases and acquires (R129). -/
structure RangeFence where
  id : Nat
  lo : Nat
  hi : Nat
  sc : Scope
  rel : Bool
  acq : Bool
  deriving DecidableEq, Repr

/-- One thread (R156, R160). -/
structure Thread where
  tid : Nat
  pc : DWord := 0
  v : List (Nat × Word) := []
  p : BitVec 7 := 0
  stack : List DWord := []
  joined : Bool := false
  left : Bool := false
  trapCause : Word := 0
  trapPc : DWord := 0
  trapInfo : DWord := 0
  resumePc : DWord := 0
  hcount : Nat := 0
  trapMask : Word := 0
  /-- At trap priority, running the handler (R372). -/
  handler : Bool := false
  /-- ITER as read (R203); `held` is the iteration held (R174). -/
  iterReg : Word := 0xFFFFFFFF
  held : Option Nat := none
  ljoined : Nat := 0
  stgets : Nat := 0
  taskArg : DWord := 0
  /-- The SET mask of the running task (R171), its 256 bits as a number. -/
  task : Option Nat := none
  pend : List Pend := []
  blocked : Option Blocked := none
  /-- The release that the thread's next instruction waited for has taken effect (R120). -/
  released : Bool := false
  /-- Waiting to be filed at an address, since a cycle (R161, R162). -/
  filing : Option (DWord × Nat) := none
  seat : Option Seat := none
  /-- Range fences that have issued and not retired (R129). -/
  fences : List RangeFence := []
  /-- Latest arrival at each barrier: barrier and phase (R165). -/
  arrived : List (Nat × Nat) := []
  triggered : Bool := false
  /-- Seal count, and the sealed batches whose end a WAITB has not yet observed (R95, R96). -/
  seals : Nat := 0
  sealed : List Nat := []
  /-- Destinations of batches finished, and of MSTOREs completed, since the last WAITB or MWAIT (R96, R323). -/
  waitbSpans : List (Nat × Span) := []
  mwaitSpans : List Span := []
  deriving DecidableEq, Repr

/-- What a parked wave waits for (R42, R121, R206, R276): the results and operations numbered in `ops`; then bound results are
written if `mark` is set, and it acquires, traps at `pc` with `cause` if `refused` names a thread (with its TRAPINFO), is filed
if it is a split part, or goes on. -/
structure Park where
  pc : DWord
  ops : List Nat := []
  mark : Bool := false
  acq : Option Scope := none
  refused : List (Nat × Nat) := []
  cause : Nat := 0x12
  split : Bool := false
  /-- The part of a split wave that went on, and how many instructions it had issued then (R42). -/
  partner : Option (Nat × Nat) := none
  deriving DecidableEq, Repr

/-- An issue wave (R159): its threads with their ISSUELANEs, in increasing lane order; the quadrant; when it last became
ready (a number of the model's sequence: R367). `since` is set while it waits at a fence (R286); `waiting` while its instruction
waits to execute, as at a fence. `issued` counts the instructions it has issued. -/
structure Wave where
  wid : Nat
  uid : Nat
  lanes : List (Nat × Nat)
  quadrant : Nat
  age : Nat
  park : Option Park := none
  since : Option Nat := none
  waiting : Bool := false
  issued : Nat := 0
  deriving DecidableEq, Repr

/-- A mere (R161), keyed to a team and an address; one for threads at trap priority apart from the rest (R372). Its threads
with the cycles at which they were first to be filed. -/
structure Mere where
  core : Nat
  uid : Nat
  pc : DWord
  handler : Bool
  threads : List (Nat × Nat)
  deriving DecidableEq, Repr

/-- A guard slot (R99). -/
inductive GuardSlot where
  | unresolved | true | false
  deriving DecidableEq, Repr

/-- A barrier (R165). -/
structure Barrier where
  phase : Nat := 0
  count : Nat := 0
  deriving DecidableEq, Repr

/-- The stage board of a team (R173): counters of the 64 slots, and per home wave the values its STGETs obtained. -/
structure Board where
  n : Nat
  w : Nat
  homewave : Bool
  next : Nat := 0
  oldest : Nat := 0
  counters : List (Nat × Nat) := []
  retired : List Nat := []
  taken : List (Nat × List Nat) := []
  deriving DecidableEq, Repr

/-- A team's relation to parcels (R62). -/
inductive ParcelRel where
  | out
  | asking (parcels : List Nat)
  | inside (parcels : List Nat)
  deriving DecidableEq, Repr

/-- Where a team is (R357, R358). -/
inductive TeamStatus where
  | queued | resident | swapped (blocks : List Nat)
  deriving DecidableEq, Repr

structure Team where
  uid : Nat
  gid : Nat
  index : Nat
  die : Nat
  cluster : Nat := 0
  core : Nat := 0
  slot : Nat := 0
  status : TeamStatus := .queued
  vregs : Nat
  localSize : Nat
  s : List (Nat × DWord) := []
  guards : List GuardSlot
  tds : List (Option (Td)) := []
  threads : List Thread
  barriers : List Barrier := List.replicate 16 {}
  board : Option Board := none
  lstarted : Nat := 0
  rel : ParcelRel := .out
  /-- The granules of its cluster that a team on a core is granted, those of its local space first (R27). -/
  granules : List Nat := []
  /-- Written bytes of local memory; what an unlisted byte holds, `locFill` says for each granule of the local space: zero, or
  bytes that are free, from a seed (R27; log 7). -/
  loc : List Host.Cell := []
  locFill : List (Option Nat) := []
  /-- Placed in a reserved slot of its context (R355). -/
  reserved : Bool := false
  /-- Requests of R341, served in order. -/
  grows : List Nat := []
  /-- Started once: a queued team not yet started has no waves (R352). -/
  started : Bool := false
  deriving DecidableEq, Repr

/-! ## Grids and contexts -/

/-- A launch record (R348). -/
structure LaunchRec where
  entry : DWord := 0
  gx : Nat := 1
  gy : Nat := 1
  gz : Nat := 1
  tx : Nat := 1
  ty : Nat := 1
  tz : Nat := 1
  vregs : Nat := 8
  locals : Nat := 0
  guards : Nat := 0
  tdcount : Nat := 0
  prio : Nat := 0
  taskHost : Bool := false
  matrix : Bool := false
  parcels : List Nat := []
  mereAge : Nat := 0
  ctx : Nat := 0
  cwords : Nat := 0
  cbank : Nat := 0
  nextRec : Nat := 0
  joinVa : Nat := 0
  deriving DecidableEq, Repr

/-- How a grid was launched: by the host with a message's tag and port, by a grid, or as a fault handler team (R373). -/
inductive Origin where
  | host (first : Nat)
  | device (parent : Nat)
  | faultHandler
  deriving DecidableEq, Repr

structure Grid where
  gid : Nat
  ctx : Nat
  lrec : LaunchRec
  depth : Nat
  origin : Origin
  order : Nat
  /-- The constant snapshot (R28), words not listed zero; the count copied; the physical pages checked at acceptance. -/
  consts : List (Nat × Word) := []
  copied : Nat := 0
  pages : List Nat := []
  /-- Teams that have ended, and whether the successor has started or been refused with a status (R366). -/
  ended : Nat := 0
  successor : Option Nat := none
  deriving DecidableEq, Repr

inductive CtxStatus where
  | running
  /-- Stopped by ASSERT (R375). -/
  | stopped
  /-- Pre-empting until the deadline in cycles of die 0; the message that asked for it (R378). -/
  | preempting (deadline : Nat) (h : CmdHdr)
  | preempted
  /-- Killed, not yet contained (R379): the host's CONTEXT_KILL that waits for it, if one does. -/
  | dying (h : Option CmdHdr)
  deriving DecidableEq, Repr

/-- The thread that a stop record names (R376). -/
structure Named where
  tid : Nat
  gid : Nat
  x : Nat
  y : Nat
  z : Nat
  pc : Nat
  cycles : Nat
  die : Nat
  cluster : Nat
  core : Nat
  deriving DecidableEq, Repr

structure StopRecord where
  kind : Nat
  cause : Nat
  nested : Bool
  named : Option Named
  info : Nat
  deriving DecidableEq, Repr

/-- What a report's handler return settles (R373). -/
inductive ReportOf where
  | courier (cmd : Nat)
  | matrix (uid : Nat)
  | remote (op : Nat)
  | deadLetterStage (cluster : Nat)
  | deadLetterDrain
  | join (gid : Nat)
  deriving DecidableEq, Repr

structure Report where
  cause : Nat
  info : Nat
  pc : Nat
  source : ReportOf
  deriving DecidableEq, Repr

/-- A context (R354), with what the device holds for it while it is resident. -/
structure Context where
  num : Nat
  xroot : DWord := 0
  trapEntry : DWord := 0
  fhRec : DWord := 0
  assertRec : DWord := 0
  dlrBase : DWord := 0
  dlrSize : Nat := 16
  pquota : Nat := 0
  lquota : Nat := 0
  pwLen : Nat := 0
  cprio : Nat := 0
  rsvTeams : Nat := 0
  pwBase : DWord := 0
  mapBase : DWord := 0
  swapBase : DWord := 0
  swapLen : DWord := 0
  rsvRec : DWord := 0
  /-- The shape that RSVTEAMS reserves, read at CONTEXT_LOAD (R355). -/
  rsvShape : Option LaunchRec := none
  /-- The core of each reserved team. -/
  rsvSlots : List Nat := []
  /-- The port at which it was loaded, and the UE address from which (R397). -/
  port : Nat := 0
  host : Nat := 0
  put : Nat := 0
  take : Nat := 0
  drainStopped : Bool := false
  /-- By position, the launching grids of launch records in the ring, and the task records of a poster of their own cluster (R333). -/
  dlrParents : List (Nat × Nat) := []
  dlrNear : List Nat := []
  status : CtxStatus := .running
  reports : List Report := []
  handling : Option Report := none
  fhGid : Option Nat := none
  handlers : List (Nat × List Byte) := []
  windowLeaves : List Nat := []
  /-- A CONTEXT_UNLOAD that waits for a launch accepted in its own cycle (R369). -/
  unloading : Option CmdHdr := none
  /-- Join decrements, of a grid at an address, that are tried again and whose further report waits for room (R340, R373). -/
  joinRetries : List (Nat × Nat) := []
  stopRec : Option StopRecord := none
  deriving DecidableEq, Repr

/-! ## Memory system -/

/-- A cached translation (R15): of a core, a cluster or a die, a context, and a page of 64 KiB or 512 MiB. -/
structure TlbEntry where
  unit : TlbUnit
  ctx : Nat
  big : Bool
  page : Nat
  pfn : Nat
  rd : Bool
  wr : Bool
  ex : Bool
  kind : OrdKind
  pk : Bool
  nl : Bool
  deriving DecidableEq, Repr

/-- A valid leaf as a translation holds it (R13, R15). -/
structure Leaf where
  big : Bool
  pfn : Nat
  rd : Bool
  wr : Bool
  ex : Bool
  kind : OrdKind
  pk : Bool
  nl : Bool
  deriving DecidableEq, Repr

/-- An entry of a die's walk cache (R15): a root table's pointer (VA[51:42]) or a middle table's (VA[51:29]). -/
structure WalkEntry where
  die : Nat
  ctx : Nat
  middle : Bool
  index : Nat
  table : Nat
  deriving DecidableEq, Repr

/-- A copy of a line in a cluster's L1, in a way of its slice and set (R34, R35, R50). -/
structure L1Copy where
  cluster : Nat
  line : Nat
  way : Nat
  data : BitVec 1024
  valid : BitVec 4
  held : Bool
  deriving DecidableEq, Repr

/-- A line present in its home slice; `bytes` marks the bytes of partly written sectors (R44). -/
structure L2Line where
  line : Nat
  valid : BitVec 4
  dirty : BitVec 4
  bytes : BitVec 128
  deriving DecidableEq, Repr

/-- Bytes of a load that one sector supplies: the thread's pending result, the byte of the datum that comes first, its virtual
address, the address and count, and bytes the load must see instead (R37). -/
structure Waiter where
  uid : Nat
  tid : Nat
  pend : Nat
  first : Nat
  va : Nat
  addr : Nat
  count : Nat
  overlay : List Host.Cell
  deriving DecidableEq, Repr

/-- A read-modify-write (R281 to R283): the operation's name is its opcode and code. -/
structure AtomicOp where
  op : Nat
  code : Nat
  ty : Ty
  addr : Nat
  b : Nat
  c : Nat
  deriving DecidableEq, Repr

/-- What a message does. Messages of one cluster for one line keep their order, both ways (log 13). -/
inductive MsgKind where
  /-- A load on its way to its L1 slice, where it found its bytes when it issued (R36). -/
  | lookup (w : Waiter)
  /-- A store on its way to its L1 slice, which has not accepted it (R118). `early`: it performs at cluster scope there. -/
  | toL1 (bytes : List Host.Cell) (early : Bool)
  /-- A read of one sector on its way to the home slice; `alloc`: the fill will be allocated in L1. -/
  | read (sector : Nat) (alloc : Bool) (overlay : List Host.Cell) (waiters : List Waiter)
  /-- The same read waiting for GDDR 7 at the home slice (R44). -/
  | dram (sector : Nat) (alloc : Bool) (overlay : List Host.Cell) (waiters : List Waiter)
  /-- The sector on its way back. -/
  | fill (sector : Nat) (data : BitVec 256) (alloc : Bool) (overlay : List Host.Cell) (waiters : List Waiter)
  /-- A store on its way to the home slice. `early`: its cluster has accepted it, so that it cannot be refused (R118). -/
  | write (bytes : List Host.Cell) (early : Bool)
  /-- An atomic on its way to the home slice, with the pending result it binds. -/
  | atomic (a : AtomicOp) (pend : Option Nat)
  /-- An atomic held in the cluster until the line is granted (R50). -/
  | l1Atomic (a : AtomicOp) (pend : Option Nat)
  /-- The acknowledgement of a store (with its bytes) or atomic, with the value to bind; or the lowest refused address, and the
  ACCESS code of R24 in the value's place. -/
  | ack (bytes : List Host.Cell) (early : Bool) (pend : Option Nat) (value : Nat) (refused : Option Nat)
  | grantReq (overlay : List Host.Cell)
  | grant (data : BitVec 1024) (overlay : List Host.Cell)
  | recall
  | release
  deriving DecidableEq, Repr

/-- A message between an L1 slice and a home slice. A polder line's number is from 2^41 up (the line of the address
2^48 + id * 2^28 + offset that the model gives a polder's byte). -/
structure Msg where
  id : Nat
  cluster : Nat
  line : Nat
  uid : Nat
  tid : Nat
  /-- The operation and the instruction (numbers of the model's sequence) the message is part of. -/
  op : Nat
  instr : Nat := 0
  ctx : Nat
  kind : OrdKind := .rc
  va : Nat := 0
  size : Nat := 0
  /-- When it arrived at a home slice that holds it during a recall (R51); 0 while it has not. -/
  arrived : Nat := 0
  what : MsgKind
  deriving DecidableEq, Repr

/-- A store or atomic that waits for its own release (R120, R281): it is not yet accepted. -/
structure Deferred where
  id : Nat
  uid : Nat
  tid : Nat
  cluster : Nat
  sc : Scope
  since : Nat
  ctx : Nat
  kind : OrdKind
  loc : Bool
  home : Bool
  va : Nat
  size : Nat
  lines : List Nat
  what : Sum (List Host.Cell) (AtomicOp × Option Nat)
  deriving DecidableEq, Repr

/-- A block of the instruction cache of a core (R40). -/
structure IBlock where
  core : Nat
  addr : Nat
  data : BitVec 256
  deriving DecidableEq, Repr

/-! ## Parcels and polders -/

inductive ParcelState where
  | absent | filling | resident | evicting
  deriving DecidableEq, Repr

/-- A parcel table entry in use (R57 to R61, R82). -/
structure Parcel where
  id : Nat
  ctx : Nat
  /-- First line (VA / 128) and count of each extent. -/
  extents : List (Nat × Nat)
  ro : Bool
  state : ParcelState := .absent
  entered : Nat := 0
  freed : Bool := false
  /-- When ENTERED last fell to zero (R70). -/
  idleSince : Nat := 0
  /-- The translations of its virtual pages that are pinned, until it is evicted; and those that the PAC keeps for the head's
  test, or for the fill of a parcel that was admitted while it was EVICTING (R18, R70, R82). -/
  pages : List (Nat × Leaf) := []
  kept : List (Nat × Leaf) := []
  deriving DecidableEq, Repr

/-- A request in the admission queue, or one that waits for the queue to have room (R70, R75): its operands with their
positions, the parcels they name, and a number that it takes as it enters the queue. -/
structure Request where
  uid : Nat
  queued : Bool
  order : Nat
  operands : List (Nat × Nat)
  ctx : Nat
  prio : Nat
  parcels : List Nat
  deriving DecidableEq, Repr

/-- A polder table entry in use (R83 to R88). -/
structure Polder where
  id : Nat
  ctx : Nat
  lines : Nat
  die : Nat
  start : Nat
  life : Nat
  page : Nat
  deriving DecidableEq, Repr

/-- A lease that has ended at the PAC, with the home slices that have applied its end (R90). -/
structure EndedLease where
  id : Nat
  ctx : Nat
  lines : Nat
  applied : List Nat := []
  deriving DecidableEq, Repr

/-! ## Engines -/

/-- An entry of a cluster's embargo table (R103, R106). -/
structure Embargo where
  cluster : Nat
  entry : Nat
  wr : Bool
  loc : Bool
  tag : Nat
  core : Nat
  uid : Nat
  tid : Nat
  cmd : Nat
  lo : Nat
  hi : Nat
  deriving DecidableEq, Repr

/-- What a courier command moves (R296 to R299). Spaces are `loc` flags. -/
inductive CourierOp where
  | cpy (dLoc sLoc : Bool) (d s n : Nat)
  | cpySlot (sLoc : Bool) (hdr slot off s n : Nat)
  | cpy2d (dLoc sLoc : Bool) (d s : Nat) (dStride sStride : Int) (rows len : Nat)
  | cpy2dSlot (sLoc : Bool) (hdr slot s : Nat) (dStride sStride : Int) (rows len : Nat)
  | cpytd (td ts : Nat) (drow dcol srow scol rows cols : Nat)
  | kvcommit (dLoc sLoc : Bool) (cand base entryBytes l : Nat) (mask lenVa : Nat)
  deriving DecidableEq, Repr

inductive CmdState where
  /-- Issued by a thread that waits for embargo entries or a queue entry (R295). -/
  | held
  | queued | running
  /-- Stopped by a fault, unsettled: cause and TRAPINFO (R94, R97). -/
  | faulted (cause info : Nat)
  deriving DecidableEq, Repr

/-- A courier command (R93 to R97). `batch` is the seal number, 0 while its batch is open. `landed` counts bytes of a .SLOT
command that have been applied to the tag. -/
structure Courier where
  id : Nat
  core : Nat
  uid : Nat
  tid : Nat
  ctx : Nat
  gid : Nat
  pc : Nat
  what : CourierOp
  guardSlot : Option Nat
  batch : Nat
  /-- The seal number that its batch takes when it is sealed. -/
  number : Nat
  state : CmdState
  /-- The command's words of both descriptors, for CPYTD (R310). -/
  tds : List (Td) := []
  landed : Nat := 0
  /-- The model's step in which it started, which chooses the bytes written first (log 6); and whether it has written them. -/
  started : Nat := 0
  begun : Bool := false
  /-- Its fault has gone to the fault handler team. -/
  reported : Bool := false
  deriving DecidableEq, Repr

/-! ## Tasks, launches, offices, remote operations, packets -/

/-- A pooled task record (R169, R170). -/
structure Task where
  cluster : Nat
  ctx : Nat
  /-- Posted by a thread of another cluster (R333). -/
  far : Bool
  entry : DWord
  waitMask : Nat
  setMask : Nat
  args : List Word
  key : DWord
  consume : Bool
  deriving DecidableEq, Repr

/-- A record in a pending-launch queue (R338, R361); grid 0 where no thread's LAUNCH put it into the ring (R364). -/
structure PendingLaunch where
  cluster : Nat
  ctx : Nat
  gid : Nat
  record : List Byte
  /-- The physical pages of the constant image as they were checked (R350). -/
  pages : List Nat
  deriving DecidableEq, Repr

/-- An entry of a sorting office (R335). -/
structure SofEntry where
  office : Nat
  ctx : Nat
  key : Nat
  payload : Nat
  order : Nat
  deriving DecidableEq, Repr

inductive RemoteKind where
  | wbsend (len src : Nat)
  | rstore (size : Nat) (datum : Nat)
  | rsig (addend : Nat)
  | amsg (h : Nat) (payload : List Byte)
  deriving DecidableEq, Repr

/-- A remote operation in flight or refused (R342, R343). `waybill` is the packet's 256 bits, none for the local form. -/
structure Remote where
  id : Nat
  core : Nat
  uid : Nat
  tid : Nat
  ctx : Nat
  gid : Nat
  pc : Nat
  va : Nat
  what : RemoteKind
  waybill : Option (BitVec 256)
  /-- The fabric port by which it leaves. -/
  port : Nat := 0
  /-- Sent; otherwise it waits for earlier operations (R134). -/
  sent : Bool := false
  /-- The bytes that a WBSEND has read. -/
  data : List Byte := []
  /-- Its packets, and how many of them have reached their endpoint (R383). -/
  parts : List Nat := []
  out : Nat := 0
  /-- The home slice at which an AMSG of the local form has arrived, and a number that it took then (R398). -/
  at? : Option (Nat × Nat) := none
  /-- The ports of the path back through the package's switches (R387, R392). -/
  back : List Nat := []
  /-- The cause (0x21 or 0x22) and REASON of its refusal. -/
  refused : Option (Nat × Nat) := none
  reported : Bool := false
  deriving DecidableEq, Repr

/-- A packet of a remote operation on the way through the package's switches (R383, R384, R391): the bytes of a WBSEND that it
carries, from `first`; the ports of its on-chip waybill, of which those that are passed name the port it arrived by (R387), 511 for
ANY-UP; the switch it stands at (0 to 31 leaves, 32 to 47 middles), the port by which it came in, its age, and the cycle of the
switch's die since which it has waited there. -/
structure Packet where
  id : Nat
  op : Nat
  first : Nat := 0
  data : List Byte := []
  hops : List Nat
  cur : Nat := 0
  switch : Nat
  inPort : Nat
  prio : Nat
  age : Nat := 0
  since : Nat := 0
  deriving DecidableEq, Repr

/-- What a frame to another device carries: an operation, whose bytes it brings from `first` on; or the answer to one, with the
REASON of a refusal (R342, R392). -/
inductive FrameKind where
  | request (ctx va : Nat) (what : RemoteKind) (first : Nat) (data : List Byte)
  | answer (reason : Option Nat)
  deriving DecidableEq, Repr

/-- A frame that a fabric port in waybill mode has sent (R387, R393): a request's waybill as it leaves; for an answer the ports
and classes of the path back. -/
structure Frame where
  port : Nat
  waybill : BitVec 256
  back : List (Nat × Nat) := []
  what : FrameKind
  deriving DecidableEq, Repr

/-- A word of a topology map in a context's map cache (R388). -/
structure MapWord where
  ctx : Nat
  index : Nat
  addrs : List Nat
  word : Nat
  deriving DecidableEq, Repr

/-- A fabric port (R393, R396). -/
structure Port where
  waybillMode : Bool := false
  up : Bool := true
  sent : Nat := 0
  received : Nat := 0
  /-- Errors that its FEC has corrected. -/
  fec : Nat := 0
  deriving DecidableEq, Repr

/-! ## Matrix engine -/

/-- A weight plane (R307, R315): format, sizes, element and scale codes by position 256 * row + column; a pruned position has
no entry. -/
structure Plane where
  fmt : Ty
  n : Nat
  k : Nat
  sparse : Bool
  scaled : Bool
  elems : List (Nat × Nat)
  scales : List (Nat × Nat)
  deriving DecidableEq, Repr

inductive MatrixOp where
  | loadw (td : Td) (row0 col0 rows cols : Nat)
  | swap
  | stream (td : Td) (handle rows maskBases : Nat) (zero tmask keep : Bool)
  | zero (row count : Nat)
  | store (td : Td) (row0 col0 m arow nc acol : Nat) (rnd : Rnd) (sat : Bool)
  | mask (parents : List Int)
  deriving DecidableEq, Repr

/-- A slot ring (R107). -/
structure Ring where
  data : Nat
  slotBytes : Nat
  nslots : Nat
  tags : Nat
  deriving DecidableEq, Repr

/-- An MSTREAM that has passed the checks of its start, with its ring, plane and descriptor placed at its slot (R318). -/
structure StreamRun where
  ring : Ring
  slot : Nat
  plane : Plane
  td : Td
  rows : Nat
  arow : Nat
  qn : Int
  kn : Int
  zero : Bool
  tmask : Bool
  keep : Bool
  deriving DecidableEq, Repr

/-- A matrix command; `instr` numbers the instruction that issued it. -/
structure MatrixCmd where
  id : Nat
  instr : Nat := 0
  core : Nat
  uid : Nat
  tid : Nat
  ctx : Nat
  gid : Nat
  pc : Nat
  opcode : Nat
  td : Nat
  what : MatrixOp
  guardSlot : Option Nat
  state : CmdState
  started : Nat := 0
  /-- An MSTREAM that has taken its slot; and what the checks at its start found: a fault's DETAIL, or the stream (R318). -/
  taken : Bool := false
  run : Option (Nat ⊕ StreamRun) := none
  deriving DecidableEq, Repr

/-- What a matrix team holds of its core's engine (R307, R314, R317, R323, R324); saved with the team (R325). -/
structure Engine where
  uid : Nat
  active : Option Plane := none
  shadow : Option Plane := none
  parents : List Int := []
  /-- Accumulators by 128 * row + column; an unlisted one is zero. -/
  acc : List (Nat × Word) := []
  /-- Rows of the running or cut stream already accumulated. -/
  rows : Nat := 0
  stopped : Bool := false
  /-- The CCC recomputes a tile (R192). -/
  assist : Bool := false
  reported : Bool := false
  /-- The queue stopped when no thread of the team was left (R314). -/
  late : Bool := false
  deriving DecidableEq, Repr

/-! ## The device -/

/-- Life-cycle states (R405). -/
inductive Lifecycle where
  | manufacture | test | production | returned | retired
  deriving DecidableEq, Repr

/-- Bring-up (R400): a step in progress, open, in recovery, or held in reset. -/
inductive Boot where
  | step (n : Nat)
  | openFull
  | recovery
  | held
  deriving DecidableEq, Repr

/-- A message to a host (R394, R397): the device's port, the host's UE address, and the bytes. -/
structure Outgoing where
  port : Nat
  host : Nat
  ctx : Nat
  tag : Nat
  code : Nat
  status : Nat
  body : List Byte
  deriving DecidableEq, Repr

/-- Whose turn it is (log 1): core cycles that pass on each die first, then a wave's issue, a step of another agent, or a
replacement that the device makes on its own (R15, R40, R388), or an L1 slice's acceptance of an access. -/
inductive Act where
  | issue (wid : Nat)
  | event (i : Instr)
  | dropTlb (unit : TlbUnit) (ctx page : Nat)
  | dropWalk (die ctx : Nat) (middle : Bool) (index : Nat)
  | dropIBlock (core addr : Nat)
  /-- An L1 slice accepts a store, or serves a load, that is on its way to it (R118). -/
  | accept (msg : Nat)
  /-- A home slice applies the end of a lease (R90). -/
  | endSlice (polder slice : Nat)
  | fillMap (die ctx index : Nat)
  | dropMap (ctx index : Nat)
  deriving DecidableEq, Repr

structure Turn where
  elapse : List Nat
  act : Act
  deriving DecidableEq, Repr

/-- Why a step of the model stops. -/
inductive Fault where
  /-- Raised by the meaning of an instruction of the ISA when `State.cur` names no wave that can issue: there is no thread
  to execute it. `step` never raises it. Safe: the hardware has no such step. -/
  | noWave
  deriving DecidableEq, Repr

/-- Why an instruction has no meaning. -/
inductive Refusal where
  /-- Raised by an arm of `exec` for an instruction that is not modelled yet. Safe. -/
  | notModelled (mnemonic : String)
  deriving DecidableEq, Repr

/-- What has happened in the current cycle of a die that bars other events of it: an event's key, and its place among the events
with that key (log 99). -/
structure Mark where
  die : Nat
  key : List Nat
  rank : Nat
  deriving DecidableEq, Repr

/-- The package. -/
structure State where
  -- the model's own (logs 1, 2, 6)
  agenda : List Turn := []
  cur : Nat := 0
  freeCtr : Nat := 0
  seq : Nat := 1
  /-- What has happened in the dies' current cycles; and the writes to guard slots in them, each a team, a slot and the writer's
  place (R102; log 99). -/
  marks : List Mark := []
  guardWrites : List (Nat × Nat × Nat) := []
  -- whole device
  mem : List Host.Cell := []
  poison : List Nat := []
  cycles : List Nat := [0, 0, 0, 0]
  deviceId : BitVec 21 := 0
  lifecycle : Lifecycle := .production
  fwsvn : BitVec 32 := 0
  boots : Nat := 0
  boot : Boot := .openFull
  pinBudget : Nat := 12
  nocAvoid : BitVec 16 := 0
  ports : List Port := List.replicate 16 {}
  nocDown : List (Nat × Nat) := []
  ecc : List Nat := List.replicate 16 0
  pinbyp : List (Nat × Nat) := []
  assists : List (Nat × Nat) := []
  throttled : Bool := false
  outbox : List Outgoing := []
  /-- Messages for hosts whose port carries none of them now (R393). -/
  unsent : List Outgoing := []
  signatures : Nat := 0
  /-- The private identity key has been erased (R402). -/
  keyErased : Bool := false
  -- translation and caches
  tlb : List TlbEntry := []
  walks : List WalkEntry := []
  /-- Copies, and L2 lines: the one used last stands last. -/
  l1 : List L1Copy := []
  l2 : List L2Line := []
  /-- The context that held a granule of a cluster last, by 512 * cluster + granule; 65536 once that context has left (R27). -/
  granuleCtx : List (Nat × Nat) := []
  /-- What the granules of ended teams still hold: a granule (512 * cluster + number) and its written bytes, by their place in it, until
  it is granted again (R417). -/
  granuleLeft : List (Nat × List Host.Cell) := []
  holders : List (Nat × Nat) := []
  msgs : List Msg := []
  deferred : List Deferred := []
  icache : List IBlock := []
  /-- The model's own: blocks fetched in this step, whose reads the home slices serve at its end. -/
  fetches : List Nat := []
  mapCache : List MapWord := []
  -- contexts, grids, teams
  contexts : List Context := []
  grids : List Grid := []
  teams : List Team := []
  waves : List Wave := []
  meres : List Mere := []
  -- parcels and polders
  parcels : List Parcel := []
  admission : List Request := []
  /-- The head that waits after its test, by its number, and whether an event of R71 calls for another test. -/
  pacHead : Nat := 0
  pacDue : Bool := false
  polders : List Polder := []
  ending : List EndedLease := []
  -- clusters
  events : List (Nat × Nat × BitVec 256) := []
  embargoes : List Embargo := []
  pool : List Task := []
  pendingLaunches : List PendingLaunch := []
  staging : List Staged := []
  -- engines
  couriers : List Courier := []
  engines : List Engine := []
  matrix : List MatrixCmd := []
  -- package
  offices : List SofEntry := []
  remotes : List Remote := []
  packets : List Packet := []
  frames : List Frame := []
  /-- The input port served last at an egress port, by 32 * switch + port (R391). -/
  served : List (Nat × Nat) := []
  deriving DecidableEq, Repr

/-- The machine right after bring-up has completed (R400 step 7; log 3): every field at the value above. -/
def State.reset : State := {}

end Sys2Proof.Machine
end

