-- ==== Sys2Proof/Machine/Bits.lean ====
section
/-! DEFINITION. Bit fields, signed values, bytes and sparse tables: the helpers the meanings share. -/

namespace Sys2Proof.Machine

/-- Bits l to l + n - 1 of a number. -/
def bits (x l n : Nat) : Nat := x / 2 ^ l % 2 ^ n

/-- Bit i of a number. -/
def bit (x i : Nat) : Bool := x / 2 ^ i % 2 == 1

/-- A w-bit number read as two's complement. -/
def signed (w x : Nat) : Int := if x % 2 ^ w < 2 ^ (w - 1) then (x % 2 ^ w : Nat) else ((x % 2 ^ w : Nat) : Int) - (2 ^ w : Nat)

/-- The low w bits of an integer. -/
def wrap (w : Nat) (i : Int) : Nat := (i % (2 ^ w : Nat)).toNat

/-- Sign extension of the low w bits to n bits. -/
def sext (w n x : Nat) : Nat := wrap n (signed w x)

/-- The number of one bits among the low w. -/
def popcount (w x : Nat) : Nat :=
  match w with
  | 0 => 0
  | w + 1 => popcount w (x / 2) + x % 2

/-- Bits reversed among the low w. -/
def reverseBits (w x : Nat) : Nat :=
  match w with
  | 0 => 0
  | w + 1 => x % 2 * 2 ^ w + reverseBits w (x / 2)

/-- x rounded up to a multiple of n. -/
def roundUp (x n : Nat) : Nat := (x + n - 1) / n * n

/-! ## Bytes -/

/-- Little-endian bytes of a number (R3). -/
def toBytes (n x : Nat) : List Byte :=
  match n with
  | 0 => []
  | n + 1 => BitVec.ofNat 8 x :: toBytes n (x / 256)

/-- The number that little-endian bytes hold. -/
def ofBytes (l : List Byte) : Nat :=
  match l with
  | [] => 0
  | b :: t => b.toNat + 256 * ofBytes t

/-- Bytes placed at an address and up. -/
def cellsAt (a : Nat) (l : List Byte) : List Host.Cell :=
  match l with
  | [] => []
  | b :: t => (a, b) :: cellsAt (a + 1) t

/-- The little-endian field of n bytes at an offset of a record. -/
def field (l : List Byte) (off n : Nat) : Nat := ofBytes ((l.drop off).take n)

/-! ## Sparse tables: keys strictly rising, no entry equal to the default -/

def Sparse.get {α : Type} (d : α) (l : List (Nat × α)) (k : Nat) : α :=
  match l with
  | [] => d
  | (k', a) :: t => if k' = k then a else Sparse.get d t k

/-- An entry at its key's place in the order. -/
def Sparse.insert {α : Type} (l : List (Nat × α)) (k : Nat) (a : α) : List (Nat × α) :=
  match l with
  | [] => [(k, a)]
  | (k', a') :: t =>
    if k' = k then (k, a) :: t
    else if k < k' then (k, a) :: (k', a') :: t
    else (k', a') :: Sparse.insert t k a

/-- A key takes a value; one equal to the default leaves no entry. -/
def Sparse.put {α : Type} [DecidableEq α] (d : α) (l : List (Nat × α)) (k : Nat) (a : α) : List (Nat × α) :=
  if a = d then l.filter (·.1 != k) else Sparse.insert l k a

/-- Keys strictly rising from a bound on, no entry equal to the default. -/
def Sparse.wfFrom {α : Type} [DecidableEq α] (d : α) (lo : Nat) (l : List (Nat × α)) : Bool :=
  match l with
  | [] => true
  | (k, a) :: t => decide (lo ≤ k) && decide (a ≠ d) && Sparse.wfFrom d (k + 1) t

/-- Several writes, the last one standing where they meet. -/
def Sparse.putAll {α : Type} [DecidableEq α] (d : α) (l : List (Nat × α)) (ws : List (Nat × α)) : List (Nat × α) :=
  match ws with
  | [] => l
  | (k, a) :: t => Sparse.putAll d (Sparse.put d l k a) t

/-! ## Memory -/

/-- What a byte of memory that nothing has written reads as (R406: the wipe writes zero). -/
abbrev Memory.unlisted : Byte := 0

def Memory.read (m : List Host.Cell) (a : Nat) : Byte := Sparse.get Memory.unlisted m a

def Memory.write (m : List Host.Cell) (ws : List Host.Cell) : List Host.Cell := Sparse.putAll Memory.unlisted m ws

/-- The canonical form of memory. -/
def Memory.wf (m : List Host.Cell) : Bool := Sparse.wfFrom Memory.unlisted 0 m

/-- n bytes from an address. -/
def Memory.bytes (m : List Host.Cell) (a n : Nat) : List Byte :=
  match n with
  | 0 => []
  | n + 1 => Memory.read m a :: Memory.bytes m (a + 1) n

/-- A little-endian number of n bytes at an address. -/
def Memory.num (m : List Host.Cell) (a n : Nat) : Nat := ofBytes (Memory.bytes m a n)

/-- Memory with every byte of a range reading as unlisted. -/
def Memory.clear (m : List Host.Cell) (lo hi : Nat) : List Host.Cell := m.filter fun c => decide (c.1 < lo ∨ hi ≤ c.1)

/-- The byte that a list of writes leaves at an address, if any: the last one. -/
def lastWrite (ws : List Host.Cell) (a : Nat) : Option Byte :=
  match ws with
  | [] => none
  | (k, b) :: t =>
    match lastWrite t a with
    | some x => some x
    | none => if k = a then some b else none

/-- Bytes of a range, with writes laid over them. -/
def overlayBytes (ov : List Host.Cell) (a : Nat) (l : List Byte) : List Byte :=
  match l with
  | [] => []
  | b :: t => (lastWrite ov a).getD b :: overlayBytes ov (a + 1) t

/-! ## Lists of objects -/

/-- The list with f applied where p holds. -/
def updWhere {α : Type} (p : α → Bool) (f : α → α) (l : List α) : List α := l.map fun x => if p x then f x else x

/-- The smallest number from lo up that is not in a list; at most as many tries as the list is long. -/
def firstFree (l : List Nat) (lo : Nat) : Nat :=
  let rec go (fuel k : Nat) : Nat :=
    match fuel with
    | 0 => k
    | fuel + 1 => if l.contains k then go fuel (k + 1) else k
  go (l.length + 1) lo

/-- Insertion into a list ordered by a key, after equal keys. -/
def insertBy {α : Type} (key : α → Nat) (x : α) (l : List α) : List α :=
  match l with
  | [] => [x]
  | y :: t => if key x < key y then x :: y :: t else y :: insertBy key x t

/-- A list ordered by a key; equal keys keep their order. -/
def sortBy {α : Type} (key : α → Nat) (l : List α) : List α :=
  match l with
  | [] => []
  | x :: t =>
    -- insert x before equal keys of the sorted rest
    let rec put (s : List α) : List α :=
      match s with
      | [] => [x]
      | y :: u => if key y < key x then y :: put u else x :: y :: u
    put (sortBy key t)

/-- The element with the least key, the first such. -/
def minBy {α : Type} (key : α → Nat) (l : List α) : Option α :=
  match l with
  | [] => none
  | x :: t =>
    match minBy key t with
    | none => some x
    | some y => if key y < key x then some y else some x

/-- Numbers lo, lo + 1, ..., n of them. -/
def iota (lo n : Nat) : List Nat :=
  match n with
  | 0 => []
  | n + 1 => lo :: iota (lo + 1) n

end Sys2Proof.Machine
end

