-- ==== Sys2Proof/Machine/Num.lean ====
section
/-! DEFINITION. Number formats and exact arithmetic (spec/08_number_formats.md R178 to R189): a value is a NaN, a signed
infinity, or a sign, a whole number m and an exponent e, standing for m * 2^e. -/

namespace Sys2Proof.Machine

inductive FVal where
  | nan
  | inf (neg : Bool)
  | fin (neg : Bool) (m : Nat) (e : Int)
  deriving DecidableEq, Repr

/-- The layout of a floating-point format (R179): exponent and mantissa bits, bias, the code of the largest finite value,
and the code of +infinity where the format has one (R180). -/
structure Fmt where
  ebits : Nat
  mbits : Nat
  bias : Nat
  maxCode : Nat
  infCode : Option Nat
  nanCode : Nat
  deriving DecidableEq, Repr

end Sys2Proof.Machine

namespace Sys2Proof

/-- The floating-point formats but PS8 (R179, R180). Another type gives FP32's layout. -/
def Ty.fmt : Ty → Machine.Fmt
  | .f64 => ⟨11, 52, 1023, 0x7FEFFFFFFFFFFFFF, some 0x7FF0000000000000, 0x7FF8000000000000⟩
  | .f16 => ⟨5, 10, 15, 0x7BFF, some 0x7C00, 0x7E00⟩
  | .bf16 => ⟨8, 7, 127, 0x7F7F, some 0x7F80, 0x7FC0⟩
  | .e5m2 => ⟨5, 2, 15, 0x7B, some 0x7C, 0x7E⟩
  | .e4m3 => ⟨4, 3, 7, 0x7E, none, 0x7F⟩
  | .e2m1 => ⟨2, 1, 1, 7, none, 0⟩
  | _ => ⟨8, 23, 127, 0x7F7FFFFF, some 0x7F800000, 0x7FC00000⟩

/-- The bits of one element of a type (R179, R186, R184). -/
def Ty.bits : Ty → Nat
  | .i8 | .n8 | .e4m3 | .e5m2 | .ps8 => 8
  | .i16 | .n16 | .f16 | .bf16 => 16
  | .e2m1 => 4
  | .b64 | .i64 | .n64 | .f64 => 64
  | .b128 => 128
  | .b32 | .i32 | .n32 | .f32 => 32

/-- Whether an integer type is read as two's complement (R237). -/
def Ty.isSigned : Ty → Bool
  | .i8 | .i16 | .i32 | .i64 => true
  | _ => false

/-- The bounds of an integer type (R184). -/
def Ty.minInt (t : Ty) : Int := if t.isSigned then -(2 ^ (t.bits - 1) : Nat) else 0
def Ty.maxInt (t : Ty) : Int := if t.isSigned then (2 ^ (t.bits - 1) : Nat) - 1 else (2 ^ t.bits : Nat) - 1

end Sys2Proof

namespace Sys2Proof.Machine

/-- A PS8 term in units of 2^-6 (R186). -/
def ps8Term (sign e : Nat) : Int := if e = 7 then 0 else if sign = 1 then -((64 / 2 ^ e : Nat) : Int) else (64 / 2 ^ e : Nat)

/-- The value of bits read as a floating-point type (R179, R180, R186). -/
def FVal.decode (ty : Ty) (x : Nat) : FVal :=
  match ty with
  | .ps8 =>
    let t := ps8Term (bits x 7 1) (bits x 4 3) + ps8Term (bits x 3 1) (bits x 0 3)
    .fin (decide (t < 0)) t.natAbs (-6)
  | _ =>
    let f := ty.fmt
    let w := f.ebits + f.mbits
    let neg := bit x w
    let code := x % 2 ^ w
    let ex := code / 2 ^ f.mbits
    let m := code % 2 ^ f.mbits
    match f.infCode with
    | some i =>
      if code = i then .inf neg
      else if i < code then .nan
      else if ex = 0 then .fin neg m (1 - f.bias - f.mbits)
      else .fin neg (2 ^ f.mbits + m) (ex - f.bias - f.mbits)
    | none =>
      if f.maxCode < code then .nan
      else if ex = 0 then .fin neg m (1 - f.bias - f.mbits)
      else .fin neg (2 ^ f.mbits + m) (ex - f.bias - f.mbits)

/-- Whether rounding goes away from zero, from what is left over: rem of den (R182). -/
def roundsUp (r : Rnd) (neg odd : Bool) (rem den : Nat) : Bool :=
  match r with
  | .rn => decide (den < 2 * rem) || (decide (2 * rem = den) && odd)
  | .rz => false
  | .ru => !neg && decide (rem ≠ 0)
  | .rd => neg && decide (rem ≠ 0)

/-- The whole number that rounding m * 2^e in units of 2^q gives. -/
def roundUnits (r : Rnd) (neg : Bool) (m : Nat) (e q : Int) : Nat :=
  if q ≤ e then m * 2 ^ (e - q).toNat
  else
    let den := 2 ^ (q - e).toNat
    let k := m / den
    if roundsUp r neg (k % 2 == 1) (m % den) den then k + 1 else k

/-- The NaN result of a format (R183). -/
def nanResult (ty : Ty) : Nat := if ty = .ps8 then 0x77 else ty.fmt.nanCode

/-- A code with the sign bit of its format. -/
def withSign (ty : Ty) (neg : Bool) (code : Nat) : Nat :=
  code + neg.toNat * 2 ^ (ty.fmt.ebits + ty.fmt.mbits)

/-- The largest finite value with a sign: for PS8, 2 or -2 (R186). -/
def maxResult (ty : Ty) (neg : Bool) : Nat :=
  if ty = .ps8 then (if neg then 0x88 else 0x00) else withSign ty neg ty.fmt.maxCode

/-- The overflow result (R183). -/
def overflowResult (ty : Ty) (r : Rnd) (sat neg : Bool) : Nat :=
  let beyond := match ty.fmt.infCode with
    | some i => withSign ty neg i
    | none => nanResult ty
  if sat || ty = .e2m1 || ty = .ps8 then maxResult ty neg
  else match r with
    | .rn => beyond
    | .rz => maxResult ty neg
    | .ru => if neg then maxResult ty neg else beyond
    | .rd => if neg then beyond else maxResult ty neg

/-- The infinity result (R183). -/
def infResult (ty : Ty) (sat neg : Bool) : Nat :=
  if sat || ty = .e2m1 || ty = .ps8 then maxResult ty neg
  else match ty.fmt.infCode with
    | some i => withSign ty neg i
    | none => nanResult ty

/-- The positive PS8 values in units of 2^-6, with their canonical encodings (R186, R187): single terms, 2, sums and
differences. -/
def ps8Table : List (Nat × Nat) :=
  (iota 0 7).map (fun e => (64 / 2 ^ e, e * 16 + 7)) ++ [(128, 0)]
    ++ (iota 0 7).flatMap (fun a => ((iota 0 7).filter (a < ·)).map fun b => (64 / 2 ^ a + 64 / 2 ^ b, a * 16 + b))
    ++ (iota 0 7).flatMap (fun a => ((iota 0 7).filter (a + 3 ≤ ·)).map fun b => (64 / 2 ^ a - 64 / 2 ^ b, a * 16 + 8 + b))

/-- A canonical encoding with the signs of its terms inverted: a zero term keeps its sign bit 0 (R187). -/
def ps8Negate (code : Nat) : Nat :=
  if code % 8 = 7 then code + 128 else if bit code 3 then code + 128 - 8 else code + 128 + 8

/-- ROUND to PS8 of a magnitude m * 2^e that is not zero (R188). -/
def roundPs8 (r : Rnd) (neg : Bool) (m : Nat) (e : Int) : Nat :=
  -- in units of 2^-6, as num / den
  let num := if 0 ≤ e + 6 then m * 2 ^ (e + 6).toNat else m
  let den := if 0 ≤ e + 6 then 1 else 2 ^ (-(e + 6)).toNat
  if 128 * den < num then maxResult .ps8 neg
  else
    let below := ps8Table.foldl (fun best c => if c.1 * den ≤ num ∧ best.1 < c.1 then c else best) (0, 0x77)
    let above := ps8Table.foldl (fun best c => if num ≤ c.1 * den ∧ c.1 < best.1 then c else best) (129, 0)
    let up := match r with
      | .rn => decide (above.1 * den - num < num - below.1 * den)
      | .rz => false
      | .ru => !neg
      | .rd => neg
    let c := if below.1 * den = num then below else if up then above else below
    if c.1 = 0 then 0x77 else if neg then ps8Negate c.2 else c.2

/-- ROUND of a value into a format (R182, R183). -/
def FVal.round (ty : Ty) (r : Rnd) (sat : Bool) (x : FVal) : Nat :=
  match x with
  | .nan => nanResult ty
  | .inf neg => infResult ty sat neg
  | .fin neg m e =>
    if m = 0 then (if ty = .ps8 then 0x77 else withSign ty neg 0)
    else
      let f := ty.fmt
      let top := e + m.log2
      let emin : Int := 1 - f.bias
      if ty = .ps8 then
        if 8 < top then maxResult ty neg
        else if top < -20 then roundPs8 r neg 1 (-20)
        else roundPs8 r neg m e
      else if (f.bias : Int) + 2 < top then overflowResult ty r sat neg
      else if top < emin - f.mbits - 2 then
        -- below a quarter of the least subnormal
        withSign ty neg (roundUnits r neg 1 0 2)
      else
        let q := max top emin - f.mbits
        let k := roundUnits r neg m e q
        let code := ((q + f.mbits + f.bias).toNat) * 2 ^ f.mbits + k - 2 ^ f.mbits
        if f.maxCode < code then overflowResult ty r sat neg else withSign ty neg code

/-! ## Exact arithmetic -/

def FVal.neg : FVal → FVal
  | .nan => .nan
  | .inf n => .inf (!n)
  | .fin n m e => .fin (!n) m e

/-- An integer as a value (R199). -/
def FVal.ofInt (i : Int) : FVal := .fin (decide (i < 0)) i.natAbs 0

/-- A finite value in units of 2^q, for q no greater than its exponent. -/
def scaledInt (neg : Bool) (m : Nat) (e q : Int) : Int :=
  let k : Int := (m * 2 ^ (e - q).toNat : Nat)
  if neg then -k else k

/-- The exact sum; an exact zero from operands that are not both zero of one sign has sign + but under RD (R182). -/
def FVal.add (r : Rnd) (x y : FVal) : FVal :=
  match x, y with
  | .nan, _ | _, .nan => .nan
  | .inf a, .inf b => if a = b then .inf a else .nan
  | .inf a, .fin .. => .inf a
  | .fin .., .inf b => .inf b
  | .fin a m e, .fin b n f =>
    let q := min e f
    let z := scaledInt a m e q + scaledInt b n f q
    if z = 0 then .fin (if m = 0 ∧ n = 0 ∧ a = b then a else r == .rd) 0 0 else .fin (decide (z < 0)) z.natAbs q

/-- The exact product (R181). -/
def FVal.mul (x y : FVal) : FVal :=
  match x, y with
  | .nan, _ | _, .nan => .nan
  | .inf a, .inf b => .inf (a != b)
  | .inf a, .fin b n _ => if n = 0 then .nan else .inf (a != b)
  | .fin a m _, .inf b => if m = 0 then .nan else .inf (a != b)
  | .fin a m e, .fin b n f => .fin (a != b) (m * n) (e + f)

/-- a * 2^n (R262). -/
def FVal.scale (x : FVal) (n : Int) : FVal :=
  match x with
  | .fin a m e => .fin a m (e + n)
  | x => x

/-- The exact sum of several terms (R189). -/
def FVal.sum (r : Rnd) (l : List FVal) : FVal :=
  match l with
  | [] => .fin false 0 0
  | [x] => x
  | x :: t => FVal.add r x (FVal.sum r t)

/-- a < b of values that are not NaN; -0 equals +0 (R263). -/
def FVal.lt (x y : FVal) : Bool :=
  match x, y with
  | .nan, _ | _, .nan => false
  | .inf a, .inf b => a && !b
  | .inf a, .fin .. => a
  | .fin .., .inf b => !b
  | .fin a m e, .fin b n f => decide (scaledInt a m e (min e f) < scaledInt b n f (min e f))

def FVal.isNan : FVal → Bool
  | .nan => true
  | _ => false

def FVal.isZero : FVal → Bool
  | .fin _ m _ => m == 0
  | _ => false

def FVal.negative : FVal → Bool
  | .nan => false
  | .inf a => a
  | .fin a _ _ => a

/-- a = b of values that are not NaN. -/
def FVal.eq (x y : FVal) : Bool := !x.isNan && !y.isNan && !x.lt y && !y.lt x

/-- minimumNumber, with -0 below +0 (R189). -/
def FVal.minNum (x y : FVal) : FVal :=
  if x.isNan then y
  else if y.isNan then x
  else if x.lt y then x
  else if y.lt x then y
  else if x.negative then x else y

def FVal.maxNum (x y : FVal) : FVal :=
  if x.isNan then y
  else if y.isNan then x
  else if x.lt y then y
  else if y.lt x then x
  else if x.negative then y else x

/-- The integer chosen from a finite value by a rounding mode (R262, R184). -/
def roundToInt (r : Rnd) (neg : Bool) (m : Nat) (e : Int) : Int :=
  let k : Int := (roundUnits r neg m (max e (-2000)) 0 : Nat)
  if neg then -k else k

def clamp (lo hi x : Int) : Int := if x < lo then lo else if hi < x then hi else x

/-- ROUND to an integer type (R184). A value at or beyond 2^100 is beyond every type. -/
def FVal.toIntTy (t : Ty) (r : Rnd) (x : FVal) : Int :=
  match x with
  | .nan => 0
  | .inf neg => if neg then t.minInt else t.maxInt
  | .fin neg m e =>
    if m = 0 then 0
    else if 100 < e + m.log2 then (if neg then t.minInt else t.maxInt)
    else clamp t.minInt t.maxInt (roundToInt r neg m e)

/-- The value of bits read as an integer type: the low bits, with the type's signedness (R237, R251). -/
def intValue (t : Ty) (x : Nat) : Int := if t.isSigned then signed t.bits x else (x % 2 ^ t.bits : Nat)

/-- An integer written in a type: an 8- or 16-bit result is extended to 32 bits with the type's signedness (R251). -/
def intBits (t : Ty) (i : Int) : Nat :=
  if t.isSigned then wrap (max 32 t.bits) (signed t.bits (wrap t.bits i)) else wrap t.bits i

end Sys2Proof.Machine
end

