-- ==== Sys2Proof/Machine/Forms.lean ====
section
/-! DEFINITION. The codes of spec/09_encoding_and_opcode_map.md R208 to R212, and the form of every opcode: its length, which
fields it uses and how, and the checks of R213 step 5 with their DETAIL of R214. -/

namespace Sys2Proof

/-- The groups of R209. -/
inductive Group where
  | control | integer | cross | float | conv | memory | engine | matrix | sync | fabric
  deriving DecidableEq, Repr

/-- DETAIL of R214. -/
def Detail.pad : Nat := 1
def Detail.crossing : Nat := 2
def Detail.length : Nat := 3
def Detail.reserved : Nat := 4
def Detail.type : Nat := 5
def Detail.kind : Nat := 6
def Detail.sindex : Nat := 7
def Detail.align : Nat := 8
def Detail.guard : Nat := 9
def Detail.retain : Nat := 10
def Detail.range : Nat := 11

def Ty.code : Ty → Nat
  | .b32 => 0 | .b64 => 1 | .i8 => 2 | .i16 => 3 | .i32 => 4 | .i64 => 5 | .n8 => 6 | .n16 => 7 | .n32 => 8 | .n64 => 9
  | .f64 => 10 | .f32 => 11 | .f16 => 12 | .bf16 => 13 | .e4m3 => 14 | .e5m2 => 15 | .e2m1 => 16 | .ps8 => 17 | .b128 => 18

def Ty.ofCode (n : Nat) : Option Ty :=
  match n with
  | 0 => some .b32 | 1 => some .b64 | 2 => some .i8 | 3 => some .i16 | 4 => some .i32 | 5 => some .i64 | 6 => some .n8
  | 7 => some .n16 | 8 => some .n32 | 9 => some .n64 | 10 => some .f64 | 11 => some .f32 | 12 => some .f16
  | 13 => some .bf16 | 14 => some .e4m3 | 15 => some .e5m2 | 16 => some .e2m1 | 17 => some .ps8 | 18 => some .b128
  | _ => none

def Rnd.code : Rnd → Nat
  | .rn => 0 | .rz => 1 | .ru => 2 | .rd => 3

def Rnd.ofCode (n : Nat) : Option Rnd :=
  match n with
  | 0 => some .rn | 1 => some .rz | 2 => some .ru | 3 => some .rd | _ => none

def Ord.code : Ord → Nat
  | .rlx => 0 | .acq => 1 | .rel => 2 | .ar => 3

def Ord.ofCode (n : Nat) : Option Ord :=
  match n with
  | 0 => some .rlx | 1 => some .acq | 2 => some .rel | 3 => some .ar | _ => none

def Scope.code : Scope → Nat
  | .th => 0 | .wv => 1 | .tm => 2 | .cl => 3 | .pk => 4 | .sy => 5

def Scope.ofCode (n : Nat) : Option Scope :=
  match n with
  | 0 => some .th | 1 => some .wv | 2 => some .tm | 3 => some .cl | 4 => some .pk | 5 => some .sy | _ => none

def Space.code : Space → Nat
  | .g => 0 | .l => 1 | .k => 2

def Space.ofCode (n : Nat) : Option Space :=
  match n with
  | 0 => some .g | 1 => some .l | 2 => some .k | _ => none

def Src2.code : Src2 → Nat
  | .f16 => 0 | .bf16 => 1 | .e4m3 => 2 | .e5m2 => 3

def Src2.ofCode (n : Nat) : Option Src2 :=
  match n with
  | 0 => some .f16 | 1 => some .bf16 | 2 => some .e4m3 | 3 => some .e5m2 | _ => none

/-- The number of a special register, less 256 (R203). -/
def Special.index : Special → Nat
  | .threadId => 0 | .laneId => 1 | .waveId => 2 | .issueLane => 3 | .issueMask => 4
  | .teamIdX => 5 | .teamIdY => 6 | .teamIdZ => 7 | .teamDimX => 8 | .teamDimY => 9 | .teamDimZ => 10
  | .gridDimX => 11 | .gridDimY => 12 | .gridDimZ => 13 | .gridId => 14 | .depth => 15 | .clusterId => 16
  | .coreId => 17 | .dieId => 18 | .ctxId => 19 | .cycles => 20 | .iter => 21 | .stage => 22 | .taskArg => 23
  | .vregs => 24 | .localSize => 25 | .trapCause => 26 | .trapPc => 27 | .trapInfo => 28 | .deviceId => 29

def Special.ofIndex (n : Nat) : Option Special :=
  match n with
  | 0 => some .threadId | 1 => some .laneId | 2 => some .waveId | 3 => some .issueLane | 4 => some .issueMask
  | 5 => some .teamIdX | 6 => some .teamIdY | 7 => some .teamIdZ | 8 => some .teamDimX | 9 => some .teamDimY
  | 10 => some .teamDimZ | 11 => some .gridDimX | 12 => some .gridDimY | 13 => some .gridDimZ | 14 => some .gridId
  | 15 => some .depth | 16 => some .clusterId | 17 => some .coreId | 18 => some .dieId | 19 => some .ctxId
  | 20 => some .cycles | 21 => some .iter | 22 => some .stage | 23 => some .taskArg | 24 => some .vregs
  | 25 => some .localSize | 26 => some .trapCause | 27 => some .trapPc | 28 => some .trapInfo | 29 => some .deviceId
  | _ => none

/-- An operand field's eleven bits (R197): the kind in the two high bits, the index below. -/
def Operand.code : Operand → Nat
  | .v i => i.toNat
  | .s i => 0x200 + i.toNat
  | .sr r => 0x300 + r.index
  | .k i => 0x400 + i.toNat
  | .lit x => 0x600 + x.toNat

/-- The operand that eleven bits name (R197): none for the S indices with no register. -/
def Operand.ofCode (n : Nat) : Option Operand :=
  if n < 0x200 then some (.v (BitVec.ofNat 9 n))
  else if n < 0x280 then some (.s (BitVec.ofNat 7 (n - 0x200)))
  else if n < 0x300 then none
  else if n < 0x400 then (Special.ofIndex (n - 0x300)).map .sr
  else if n < 0x600 then some (.k (BitVec.ofNat 9 (n - 0x400)))
  else if n < 0x800 then some (.lit (BitVec.ofNat 9 (n - 0x600)))
  else none

/-- The eleven MOD bits of an opcode's group (R209). -/
def Mods.code (g : Group) (m : Mods) : Nat :=
  match g with
  | .control | .sync => 0
  | .integer => m.ty.code * 64 + m.sat.toNat * 32 + m.src.code
  | .cross => m.ty.code * 64 + m.bit.toNat
  | .float => m.ty.code * 64 + m.rnd.code * 16 + m.sat.toNat * 8 + m.src2.code
  | .conv => m.ty.code * 64 + m.src.code
  | .memory => m.ty.code * 64 + m.ord.code * 16 + m.sc.code * 2 + m.bit.toNat
  | .engine => m.dsp.code * 512 + m.ssp.code * 128 + m.sc.code * 2 + m.bit.toNat
  | .matrix => m.sc.code * 2
  | .fabric => m.ty.code * 64

/-- The MOD bits read by the layout of a group (R209), or none where a code is reserved or a bit marked 0 is set. -/
def Mods.ofCode (g : Group) (n : Nat) : Option Mods :=
  match g with
  | .control | .sync => if n = 0 then some {} else none
  | .integer => do
    let ty ← Ty.ofCode (n / 64); let src ← Ty.ofCode (n % 32)
    some { ty, src, sat := decide (n / 32 % 2 = 1) }
  | .cross => if n % 64 < 2 then do let ty ← Ty.ofCode (n / 64); some { ty, bit := decide (n % 2 = 1) } else none
  | .float => do
    let ty ← Ty.ofCode (n / 64); let rnd ← Rnd.ofCode (n / 16 % 4); let src2 ← Src2.ofCode (n % 8)
    some { ty, rnd, src2, sat := decide (n / 8 % 2 = 1) }
  | .conv => if n / 32 % 2 = 0 then do
      let ty ← Ty.ofCode (n / 64); let src ← Ty.ofCode (n % 32); some { ty, src } else none
  | .memory => do
    let ty ← Ty.ofCode (n / 64); let ord ← Ord.ofCode (n / 16 % 4); let sc ← Scope.ofCode (n / 2 % 8)
    some { ty, ord, sc, bit := decide (n % 2 = 1) }
  | .engine => if n / 16 % 8 = 0 then do
      let dsp ← Space.ofCode (n / 512); let ssp ← Space.ofCode (n / 128 % 4); let sc ← Scope.ofCode (n / 2 % 8)
      some { dsp, ssp, sc, bit := decide (n % 2 = 1) } else none
  | .matrix => if n / 16 = 0 ∧ n % 2 = 0 then do let sc ← Scope.ofCode (n / 2 % 8); some { sc } else none
  | .fabric => if n % 64 = 0 then do let ty ← Ty.ofCode (n / 64); some { ty } else none

/-- The guard code (R204): GP in the low three bits, GN above it. -/
def Guard.code : Guard → Nat
  | .always => 7
  | .pred n neg => n.val + neg.toNat * 8

def Guard.ofCode (n : Nat) : Option Guard :=
  if h : n % 8 < 7 then (if n < 16 then some (.pred ⟨n % 8, h⟩ (decide (n / 8 % 2 = 1))) else none)
  else if n = 7 then some .always else none

def Retain.code : Retain → Nat
  | .none => 0 | .a => 1 | .b => 2 | .c => 3

def Retain.ofCode (n : Nat) : Retain :=
  match n with
  | 0 => .none | 1 => .a | 2 => .b | _ => .c

/-- The register width of a type (R198, R260): narrow values stand in 32-bit registers. -/
def Ty.regBits : Ty → Nat
  | .b64 | .i64 | .n64 | .f64 => 64
  | .b128 => 128
  | _ => 32

/-- How an opcode uses an operand field (R197 to R201). -/
inductive FSpec where
  /-- Not used: holds 0x600 (R201). -/
  | unused
  /-- A destination of a width (R200). -/
  | dst (w : Nat)
  /-- A source of a width, of any kind. -/
  | src (w : Nat)
  /-- A source of a width, of any kind but a literal (R199). -/
  | srcNoLit (w : Nat)
  /-- A V quad, and no other kind (R198). -/
  | quad
  /-- A predicate destination (R200). -/
  | pdst
  /-- A predicate source (R250). -/
  | psrc
  /-- A literal number from 0 to a maximum (R243, R328). -/
  | num (max : Nat)
  /-- A block of 32 V registers, or unused (R328). -/
  | vblock
  deriving DecidableEq, Repr

/-- Whether a V or K index is aligned for a width (R198). -/
def alignErr (w : Nat) (i : BitVec 9) : Option Nat :=
  if i.toNat % (w / 32) = 0 then none else some Detail.align

/-- Why an operand does not pass in a field: the DETAIL of R214. -/
def FSpec.err (sp : FSpec) (o : Operand) : Option Nat :=
  match sp with
  | .unused => if o = .unused then none else some Detail.reserved
  | .dst w =>
    match o with
    | .v i => alignErr w i
    | .s _ | .lit _ => none
    | .sr _ | .k _ => some Detail.kind
  | .src w =>
    match o with
    | .v i | .k i => alignErr w i
    | .s _ | .lit _ | .sr _ => none
  | .srcNoLit w =>
    match o with
    | .v i | .k i => alignErr w i
    | .s _ | .sr _ => none
    | .lit _ => some Detail.kind
  | .quad =>
    match o with
    | .v i => alignErr 128 i
    | _ => some Detail.kind
  | .pdst =>
    match o with
    | .lit x => if x.toNat < 8 then none else some Detail.kind
    | _ => some Detail.kind
  | .psrc =>
    match o with
    | .lit x => if x.toNat < 7 then none else some Detail.kind
    | _ => some Detail.kind
  | .num max =>
    match o with
    | .lit x => if x.toNat ≤ max then none else some Detail.range
    | _ => some Detail.kind
  | .vblock =>
    match o with
    | .v i => if i.toNat % 32 = 0 then none else some Detail.align
    | o => if o = .unused then none else some Detail.kind

/-- The DETAIL for an S index with no register (R197), by the field it stands in. -/
def FSpec.badIndexErr : FSpec → Nat
  | .unused => Detail.reserved
  | .dst _ | .src _ | .srcNoLit _ => Detail.sindex
  | _ => Detail.kind

/-- The uses of the operand fields. `e` is the fourth operand of PENTER and SOFPUT in X21[10:0] (R210). -/
structure Specs where
  d : FSpec := .unused
  a : FSpec := .unused
  b : FSpec := .unused
  c : FSpec := .unused
  e : Option FSpec := none

/-- The form of an opcode. `tys` is the types accepted for an FN value, where MOD has TY. `specs` may look at FN, at MOD and at whether C holds anything but 0x600. The checks answer a
DETAIL of R214. -/
structure Form where
  words : Nat
  group : Group
  fnOk : Nat → Bool := fun n => n == 0
  tys : Option (Nat → List Ty) := none
  /-- DETAIL of a reserved type code: RESERVED (R208), and TYPE for ATOM, ATOMF and RED (R281 step 1). -/
  noTy : Nat := Detail.reserved
  modErr : Nat → Mods → Option Nat := fun _ _ => none
  specs : Nat → Mods → Bool → Specs := fun _ _ _ => {}
  x21Err : Nat → Mods → Nat → Option Nat := fun _ _ x => if x = 0 then none else some Detail.reserved
  l32Ok : Nat → Bool := fun l => l == 0

/-- A check that a condition holds, with the DETAIL it answers otherwise. -/
def orErr (ok : Bool) (e : Nat) : Option Nat := if ok then none else some e

/-- The first of two checks that fails. -/
def firstErr (a b : Option Nat) : Option Nat :=
  match a with
  | some e => some e
  | none => b

def tysInt : List Ty := [.i32, .n32, .i64, .n64]
def tysBit : List Ty := [.b32, .b64]
def tysSmallInt : List Ty := [.i8, .i16, .i32, .i64, .n8, .n16, .n32, .n64]
def tysArith : List Ty := [.f64, .f32, .f16, .bf16]
def tysHalf : List Ty := [.f16, .bf16]
def tysFloat : List Ty := [.f64, .f32, .f16, .bf16, .e4m3, .e5m2, .e2m1, .ps8]
def tysLoad : List Ty := [.i8, .n8, .i16, .n16, .b32, .b64, .b128]
def tysStore : List Ty := [.n8, .n16, .b32, .b64, .b128]

/-- MOD of the integer group for an opcode with no second type (R237): a saturation not accepted and a second type take
DETAIL TYPE. -/
def intErr (sat : Bool) (m : Mods) : Option Nat := orErr ((sat || !m.sat) && m.src == .b32) Detail.type

/-- MOD of the float group (R259). -/
def floatErr (rnd sat : Bool) (src2 : Option (List Src2)) (m : Mods) : Option Nat :=
  firstErr (orErr ((rnd || m.rnd == .rn) && (sat || !m.sat) && (src2.isSome || m.src2 == .f16)) Detail.reserved)
    (orErr (match src2 with | none => true | some l => l.contains m.src2) Detail.type)

/-- MOD of the memory group besides TY (R271): DETAIL RESERVED. -/
def memErr (ords : List Ord) (sc byp : Bool) (m : Mods) : Option Nat :=
  orErr (ords.contains m.ord && (sc || m.sc == .th) && (byp || !m.bit)) Detail.reserved

/-- MOD of the engine group (R291): every field but those an opcode uses is zero. -/
def engineErr (m : Mods) : Option Nat := orErr (m == {}) Detail.reserved

/-- The datum of a memory type (R272): a V quad for .B128. -/
def datumDst (t : Ty) : FSpec := if t = .b128 then .quad else .dst t.regBits
def datumSrc (t : Ty) : FSpec := if t = .b128 then .quad else .src t.regBits

/-- A floating-point source (R199): a literal only for the four wide formats. -/
def floatSrc (t : Ty) : FSpec := if tysArith.contains t then .src t.regBits else .srcNoLit t.regBits

/-- The types each operation of ATOM and RED accepts (R281); an empty list is a reserved code. -/
def atomTys (op : Nat) : List Ty :=
  match op with
  | 0 | 1 | 2 => tysInt
  | 3 | 4 | 5 | 6 => tysBit
  | 7 | 8 => [.n32, .n64]
  | _ => []

/-- X21 of ATOM, RED and ATOMF (R281): a reserved operation, then a type the operation does not accept. -/
def atomX21Err (maxOp : Nat) (m : Mods) (x : Nat) : Option Nat :=
  firstErr (orErr (decide (x / 2 ^ 17 ≤ maxOp)) Detail.reserved)
    (orErr ((atomTys (x / 2 ^ 17)).contains m.ty) Detail.type)

/-- The engine guard slot code in X21[20:16] (R208). -/
def gsErr (x : Nat) : Option Nat :=
  orErr (decide (16 ≤ x / 2 ^ 16 ∨ x / 2 ^ 16 = 0)) Detail.reserved

/-- A control opcode (R238): MOD zero. -/
def controlForm (sp : Specs) : Form := { words := 2, group := .control, specs := fun _ _ _ => sp }

/-- An integer opcode (R244 to R249): sources of given widths in A, B, C. -/
def intForm (words : Nat) (tys : List Ty) (sat : Bool) (sp : Nat → Specs) : Form :=
  { words, group := .integer, tys := some fun _ => tys, modErr := fun _ => intErr sat, specs := fun _ m _ => sp m.ty.regBits }

def arith1 (w : Nat) : Specs := { d := .dst w, a := .src w }
def arith2 (w : Nat) : Specs := { d := .dst w, a := .src w, b := .src w }
def arith3 (w : Nat) : Specs := { d := .dst w, a := .src w, b := .src w, c := .src w }
def shift2 (w : Nat) : Specs := { d := .dst w, a := .src w, b := .src 32 }

/-- A float opcode (R262 to R265). -/
def floatForm (words : Nat) (tys : List Ty) (rnd sat : Bool) (sp : Nat → Specs) : Form :=
  { words, group := .float, tys := some fun _ => tys, modErr := fun _ => floatErr rnd sat none, specs := fun _ m _ => sp m.ty.regBits }

def sfuForm : Form := floatForm 2 [.f32, .f16] true true arith1

/-- A cross-lane opcode (R255 to R257). -/
def crossForm (fnMax : Nat) (tys : List Ty) (sp : Nat → Specs) : Form :=
  {
    words := 2, group := .cross, fnOk := fun n => decide (n ≤ fnMax),
    tys := some fun _ => tys,
    modErr := fun _ m => orErr (!m.bit) Detail.reserved,
    specs := fun _ m _ => sp m.ty.regBits }

/-- WREDUCE and WSCAN (R257): .B32 and .B64 only with AND, OR and XOR; .EXC on WSCAN only. -/
def scanForm (exc : Bool) : Form :=
  {
    words := 2, group := .cross, fnOk := fun n => decide (n ≤ 5),
    tys := some fun fn => if fn < 3 then tysInt else tysInt ++ tysBit,
    modErr := fun _ m => orErr (exc || !m.bit) Detail.reserved,
    specs := fun _ m _ => arith1 m.ty.regBits }

/-- A load, store or atomic of R271: FN holds the space. -/
def memForm (words : Nat) (tys : List Ty) (err : Nat → Mods → Option Nat) (sp : Ty → Specs) (x21 : Nat → Mods → Nat → Option Nat) : Form :=
  { words, group := .memory, fnOk := fun n => decide (n ≤ 2), tys := some fun _ => tys, modErr := err, specs := fun _ m _ => sp m.ty, x21Err := x21 }

def anyX21 (_ : Nat) (_ : Mods) (_ : Nat) : Option Nat := none

/-- An engine opcode of two words with every MOD field zero (R291). -/
def engineForm (sp : Specs) : Form :=
  { words := 2, group := .engine, modErr := fun _ => engineErr, specs := fun _ _ _ => sp }

/-- MOD of CPY, CPY2D and KVCOMMIT (R291): spaces .G and .L, .SLOT only with DSP .L. -/
def copyErr (slot : Bool) (m : Mods) : Option Nat :=
  orErr (m.dsp != .k && m.ssp != .k && m.sc == .th && (!m.bit || (slot && m.dsp == .l))) Detail.reserved

/-- A synchronisation opcode (R328): MOD zero. -/
def syncForm (words : Nat) (sp : Specs) : Form := { words, group := .sync, specs := fun _ _ _ => sp }

/-- A matrix opcode of R311 with MOD zero. -/
def matrixForm (words : Nat) (sp : Specs) : Form :=
  { words, group := .matrix, modErr := fun _ => engineErr, specs := fun _ _ _ => sp }

/-- A fabric opcode (R328): MOD zero but for RSTORE. -/
def fabricForm (words : Nat) (sp : Specs) : Form :=
  { words, group := .fabric, modErr := fun _ => engineErr, specs := fun _ _ _ => sp }

/-- The scopes of WAITB and MWAIT (R291, R311). -/
def waitScopeErr (m : Mods) : Option Nat :=
  orErr ([Scope.tm, .cl, .pk, .sy].contains m.sc && m == { sc := m.sc }) Detail.reserved

/-- The operands of TASKPOST (R328): a task record at A or in the block C, and a cluster in B but for .ANY. -/
def taskPostSpecs (fn : Nat) (cUsed : Bool) : Specs :=
  { d := .dst 32, a := if cUsed then .unused else .src 64, b := if fn = 0 then .src 32 else .unused, c := .vblock }

/-- CVT forms (R266 to R269). FN holds RND and SAT. -/
def convForm (tys srcs : List Ty) (sp : Mods → Specs) : Form :=
  {
    words := 2, group := .conv, fnOk := fun _ => true, tys := some fun _ => tys,
    modErr := fun _ m => orErr (srcs.contains m.src) Detail.type,
    specs := fun _ m _ => sp m }

/-- PACK (R268). -/
def packSpecs (m : Mods) : Specs :=
  match m.ty with
  | .f16 | .bf16 => { d := .dst 32, a := .src 32, b := .src 32 }
  | .e2m1 => { d := .dst 32, a := .quad, b := .quad }
  | _ => { d := .dst 32, a := .srcNoLit 64, b := .srcNoLit 64 }

/-- UNPACK (R268). -/
def unpackSpecs (m : Mods) : Specs :=
  match m.src with
  | .f16 | .bf16 => { d := .dst 64, a := .src 32 }
  | .e2m1 => { d := .quad, a := .srcNoLit 32, b := .src 32 }
  | _ => { d := .quad, a := .srcNoLit 32 }

def packTys : List Ty := [.f16, .bf16, .e4m3, .e5m2, .e2m1, .ps8]

/-- The form of the control, integer and cross-lane opcodes (R238, R244 to R257). -/
def formLow (op : Nat) : Option Form :=
  match op with
  | 0x00 => some (controlForm {})
  | 0x01 => some { controlForm {} with words := 3, x21Err := anyX21 }
  | 0x02 => some (controlForm { a := .src 64 })
  | 0x03 => some { controlForm {} with words := 3, x21Err := anyX21 }
  | 0x04 => some (controlForm { a := .src 64 })
  | 0x05 | 0x06 | 0x07 | 0x08 | 0x09 => some (controlForm {})
  | 0x0A => some (controlForm { a := .src 32 })
  | 0x0B => some { controlForm {} with fnOk := fun n => decide (n ≤ 2) }
  | 0x0C => some (controlForm { a := .src 32, b := .src 64 })
  | 0x0D => some (controlForm { a := .src 32 })
  | 0x0E => some (controlForm { d := .dst 64, a := .num 2 })
  | 0x0F => some (controlForm { a := .num 0, b := .src 64 })
  | 0x20 | 0x21 | 0x22 => some (intForm 2 tysInt true arith2)
  | 0x23 => some (intForm 3 tysInt true arith3)
  | 0x24 | 0x25 | 0x26 => some (intForm 2 tysInt false arith2)
  | 0x27 | 0x28 => some (intForm 2 [.i32, .i64] true arith1)
  | 0x29 => some (intForm 2 [.i32, .n32] true arith2)
  | 0x2A => some (intForm 3 tysInt true arith3)
  | 0x2B => some { intForm 3 [.i32, .n32, .b64] false (fun w => { d := .dst 64, a := .src w, b := .src 64 }) with
      x21Err := fun _ _ x => orErr (decide (x < 64)) Detail.reserved }
  | 0x2C => some { intForm 2 tysInt false (fun w => { d := .pdst, a := .src w, b := .src w }) with
      fnOk := fun n => decide (n ≤ 5) }
  | 0x2D => some (intForm 2 tysBit false arith2)
  | 0x2E => some (intForm 2 tysBit false arith1)
  | 0x2F => some { intForm 4 tysBit false (fun w => { d := .dst w }) with
      x21Err := fun _ m x => orErr (decide (m.ty = .b64 ∨ x = 0)) Detail.reserved, l32Ok := fun _ => true }
  | 0x30 | 0x31 | 0x32 | 0x34 => some (intForm 2 tysBit false arith2)
  | 0x33 | 0x3D | 0x3E | 0x3F => some (intForm 2 tysBit false arith1)
  | 0x35 => some { intForm 3 tysBit false arith3 with
      x21Err := fun _ _ x => orErr (decide (x < 256)) Detail.reserved }
  | 0x36 | 0x37 | 0x38 | 0x39 => some (intForm 2 tysBit false shift2)
  | 0x3A => some (intForm 3 tysBit false (fun w => { d := .dst w, a := .src w, b := .src w, c := .src 32 }))
  | 0x3B => some (intForm 2 tysInt false shift2)
  | 0x3C => some (intForm 3 tysBit false (fun w => { d := .dst w, a := .src w, b := .src w, c := .src 32 }))
  | 0x40 => some { intForm 2 [.b32] false (fun _ => { d := .pdst, a := .psrc, b := .psrc }) with
      fnOk := fun n => decide (n ≤ 3) }
  | 0x41 => some (intForm 2 [.b32] false (fun _ => { d := .pdst, a := .src 32 }))
  | 0x42 => some {
      words := 2, group := .integer,
      tys := some fun _ => tysSmallInt,
      modErr := fun _ m => orErr (tysSmallInt.contains m.src) Detail.type,
      specs := fun _ m _ => { d := .dst m.ty.regBits, a := .src m.src.regBits } }
  | 0x43 => some {
      words := 3, group := .integer,
      tys := some fun _ => [.i32, .n32],
      modErr := fun _ m => orErr ([(Ty.i32, Ty.i8), (.i32, .n8), (.n32, .n8)].contains (m.ty, m.src)) Detail.type,
      specs := fun _ _ _ => arith3 32 }
  | 0x44 => some (intForm 2 [.b32] false arith2)
  | 0x48 => some (crossForm 3 tysBit shift2)
  | 0x49 => some (crossForm 2 [.b32] (fun _ => { d := .pdst, a := .psrc }))
  | 0x4A => some (crossForm 0 [.b32] (fun _ => { d := .dst 32, a := .psrc }))
  | 0x4B => some (scanForm false)
  | 0x4C => some (scanForm true)
  | 0x4D => some (crossForm 0 tysBit (fun w => { d := .dst 32, a := .src w }))
  | 0x4E => some (crossForm 0 [.b32] (fun _ => { d := .pdst }))
  | _ => none

/-- The form of the float, special-function and conversion opcodes (R262 to R269). -/
def formFloat (op : Nat) : Option Form :=
  match op with
  | 0x60 | 0x61 | 0x62 => some (floatForm 2 tysArith true true arith2)
  | 0x63 => some (floatForm 3 tysArith true true arith3)
  | 0x64 | 0x65 => some (floatForm 2 tysArith false false arith2)
  | 0x66 => some { floatForm 2 tysArith false false (fun w => { d := .pdst, a := .src w, b := .src w }) with
      fnOk := fun n => decide (n ≤ 7) }
  | 0x67 => some (floatForm 2 tysArith false false (fun w => { d := .dst 32, a := .src w }))
  | 0x68 => some (floatForm 2 tysArith true true shift2)
  | 0x69 => some (floatForm 2 tysArith true false arith1)
  | 0x6A => some { floatForm 2 tysArith false false arith2 with
      fnOk := fun n => decide (n ≤ 3),
      specs := fun fn m _ => if fn = 0 ∨ fn = 3 then arith2 m.ty.regBits else arith1 m.ty.regBits }
  | 0x6B => some (floatForm 3 tysHalf true true arith3)
  | 0x6C | 0x6D => some (floatForm 2 tysHalf true true arith2)
  | 0x6E => some { floatForm 3 [.f32] true true arith3 with
      modErr := fun _ => floatErr true true (some [.f16, .bf16]) }
  | 0x6F => some { floatForm 3 [.f32] true true arith3 with
      modErr := fun _ => floatErr true true (some [.e4m3, .e5m2]),
      specs := fun _ _ _ => { d := .dst 32, a := .srcNoLit 32, b := .srcNoLit 32, c := .src 32 } }
  | 0x70 | 0x71 | 0x72 | 0x73 | 0x74 | 0x75 | 0x76 | 0x77 | 0x78 | 0x79 => some sfuForm
  | 0x7A => some (convForm tysFloat tysFloat
      (fun m => { d := .dst m.ty.regBits, a := floatSrc m.src }))
  | 0x7B => some (convForm tysSmallInt tysArith
      (fun m => { d := .dst m.ty.regBits, a := .src m.src.regBits }))
  | 0x7C => some (convForm tysArith tysSmallInt
      (fun m => { d := .dst m.ty.regBits, a := .src m.src.regBits }))
  | 0x7D => some (convForm packTys [.f32] packSpecs)
  | 0x7E => some { convForm [.f32] packTys unpackSpecs with fnOk := fun n => n == 0 }
  | 0x7F => some { convForm [.e4m3, .e5m2, .e2m1, .ps8] []
        (fun _ => { d := .dst 32, a := .src 32, b := .src 32 }) with
      modErr := fun _ m => orErr (m.src == .b32) Detail.reserved }
  | _ => none

/-- The form of the memory opcodes (R271) and of the engine opcodes (R291). -/
def formMem (op : Nat) : Option Form :=
  match op with
  | 0x80 => some (memForm 3 tysLoad (fun fn m => memErr [.rlx] false (fn == 0) m)
      (fun t => { d := datumDst t, a := .src 64 }) anyX21)
  | 0x81 => some (memForm 3 tysStore (fun _ => memErr [.rlx] false false)
      (fun t => { a := .src 64, b := datumSrc t }) anyX21)
  | 0x82 => some (memForm 3 tysLoad (fun _ => memErr [.rlx] true false) (fun t => { d := datumDst t, a := .src 64 }) anyX21)
  | 0x83 => some (memForm 3 tysStore (fun _ => memErr [.rlx] true false) (fun t => { a := .src 64, b := datumSrc t }) anyX21)
  | 0x84 => some { memForm 3 (tysInt ++ tysBit) (fun _ => memErr [.rlx, .acq, .rel, .ar] true false)
      (fun t => { d := datumDst t, a := .src 64, b := datumSrc t }) (fun _ => atomX21Err 8) with noTy := Detail.type }
  | 0x85 => some { memForm 4 [.b32, .b64, .b128] (fun _ => memErr [.rlx, .acq, .rel, .ar] true false)
      (fun t => { d := datumDst t, a := .src 64, b := datumSrc t, c := datumSrc t })
      (fun _ _ x => orErr (decide (x = 0)) Detail.reserved) with l32Ok := fun _ => true }
  | 0x86 => some { memForm 3 [.f32, .f64] (fun _ => memErr [.rlx, .acq, .rel, .ar] true false)
      (fun t => { d := datumDst t, a := .src 64, b := datumSrc t })
      (fun _ _ x => orErr (decide (x / 2 ^ 17 ≤ 2)) Detail.reserved) with noTy := Detail.type }
  | 0x87 => some { memForm 3 (tysInt ++ tysBit) (fun _ => memErr [.rlx, .rel] true false)
      (fun t => { a := .src 64, b := datumSrc t }) (fun _ => atomX21Err 5) with noTy := Detail.type }
  | 0x88 => some { words := 2, group := .memory, tys := some fun _ => [.b32], modErr := fun _ => memErr [.acq, .rel, .ar] true false }
  | 0x89 => some {
      words := 3, group := .memory, tys := some fun _ => [.b32], modErr := fun _ => memErr [.acq, .rel, .ar] true false,
      specs := fun _ _ _ => { a := .src 64, b := .src 64 } }
  | 0x8A => some {
      words := 3, group := .memory, tys := some fun _ => [.b32], modErr := fun _ => memErr [.rlx] false false,
      specs := fun _ _ _ => { a := .src 64 }, x21Err := anyX21 }
  | 0xA0 => some (engineForm { d := .dst 32, a := .src 64 })
  | 0xA1 => some { engineForm { d := .dst 32, a := .src 32, b := .src 32, c := .src 32, e := some (.src 32) } with
      words := 3, x21Err := fun _ _ x => orErr (decide (x < 2 ^ 11)) Detail.reserved }
  | 0xA2 => some (engineForm { d := .dst 32 })
  | 0xA3 | 0xA7 => some (engineForm { d := .dst 32, a := .src 32 })
  | 0xA4 | 0xA8 | 0xBA => some (engineForm { d := .dst 64, a := .src 32 })
  | 0xA6 => some (engineForm { d := .dst 64, a := .src 32, b := .src 64 })
  | 0xA9 => some {
      words := 3, group := .engine, modErr := fun _ => copyErr true,
      specs := fun _ _ _ => { a := .src 64, b := .src 64, c := .src 32 },
      x21Err := fun _ m x => firstErr (gsErr x) (orErr (m.bit || decide (x % 2 ^ 16 = 0)) Detail.range) }
  | 0xAA => some {
      words := 4, group := .engine, modErr := fun _ => copyErr true,
      specs := fun _ _ _ => { a := .src 64, b := .src 64, c := .src 64 },
      x21Err := fun _ _ x => firstErr (gsErr x) (orErr (decide (x % 2 ^ 16 ≠ 0)) Detail.range), l32Ok := fun l => l != 0 }
  | 0xAB => some {
      words := 3, group := .engine, modErr := fun _ => engineErr,
      specs := fun _ _ _ => { a := .src 64, b := .src 64, c := .src 32 },
      x21Err := fun _ _ x => firstErr (gsErr x) (orErr (decide (x / 2 ^ 12 % 16 = 0)) Detail.reserved) }
  | 0xAC => some (engineForm { d := .dst 32 })
  | 0xAD => some { engineForm { d := .dst 32, a := .src 32 } with modErr := fun _ => waitScopeErr }
  | 0xAE => some {
      words := 3, group := .engine, modErr := fun _ => copyErr false,
      specs := fun _ _ _ => { d := .dst 64, a := .src 64, b := .quad },
      x21Err := fun _ _ x => firstErr (gsErr x) (orErr (decide (x % 2 ^ 16 = 0)) Detail.reserved) }
  | 0xB0 | 0xB2 | 0xB3 | 0xB4 | 0xB5 => some (engineForm { d := .dst 32, a := .src 64 })
  | 0xB1 => some (engineForm { d := .dst 32, a := .src 64, b := .src 32 })
  | 0xB8 => some (engineForm { a := .src 32, b := .src 32 })
  | 0xB9 => some (engineForm { a := .src 32 })
  | _ => none

/-- The form of the matrix opcodes (R311), of the synchronisation opcodes and of the fabric opcodes (R328). -/
def formHigh (op : Nat) : Option Form :=
  match op with
  | 0xC0 => some (matrixForm 2 { d := .dst 32, a := .src 32, b := .src 64 })
  | 0xC1 => some (matrixForm 2 { d := .dst 64, a := .src 32, b := .src 32 })
  | 0xC2 => some { matrixForm 3 { a := .src 64, b := .src 32 } with
      x21Err := fun _ _ x => firstErr (gsErr x) (orErr (decide (x % 2 ^ 16 < 64)) Detail.reserved) }
  | 0xC3 | 0xCB => some (matrixForm 2 {})
  | 0xC4 => some { matrixForm 3 { a := .src 64, b := .src 32, c := .src 32 } with
      fnOk := fun n => decide (n ≤ 3),
      x21Err := fun _ _ x => firstErr (gsErr x) (orErr (decide (x % 2 ^ 16 < 128)) Detail.reserved) }
  | 0xC5 => some (matrixForm 2 { a := .src 32, b := .src 32 })
  | 0xC6 => some { matrixForm 3 { a := .src 64, b := .src 32, c := .src 32 } with
      fnOk := fun _ => true,
      x21Err := fun _ _ x => firstErr (gsErr x) (orErr (decide (x % 2 ^ 16 < 64)) Detail.reserved) }
  | 0xC7 => some { matrixForm 2 { d := .dst 32, a := .src 32 } with modErr := fun _ => waitScopeErr }
  | 0xC8 => some (matrixForm 2 { a := .src 64, b := .src 32 })
  | 0xC9 => some (matrixForm 2 { d := .dst 64, a := .src 32 })
  | 0xCA => some (matrixForm 2 { d := .dst 32, a := .src 64 })
  | 0xD0 | 0xD1 | 0xD2 => some (syncForm 2 { a := .num 15 })
  | 0xD3 | 0xD4 => some (syncForm 2 { a := .src 32, b := .src 64 })
  | 0xD5 => some { syncForm 2 { d := .dst 64, a := .src 32, b := .src 64 } with fnOk := fun n => decide (n ≤ 1) }
  | 0xD6 => some (syncForm 2 { d := .dst 64, a := .src 32 })
  | 0xD7 => some { words := 3, group := .sync, fnOk := fun n => decide (n ≤ 1), specs := fun fn _ c => taskPostSpecs fn c }
  | 0xD8 | 0xE0 | 0xE3 => some (syncForm 2 {})
  | 0xD9 => some { syncForm 3 { d := .dst 32, a := .src 32, b := .src 64, c := .src 32, e := some (.src 32) } with
      x21Err := fun _ _ x => orErr (decide (x < 2 ^ 11)) Detail.reserved }
  | 0xDA => some (syncForm 2 { d := .quad, a := .src 32 })
  | 0xDB => some { syncForm 3 { a := .src 32, b := .src 32 } with fnOk := fun n => decide (n ≤ 1) }
  | 0xDC => some (syncForm 2 { d := .dst 32 })
  | 0xDD | 0xDE | 0xDF => some (syncForm 2 { a := .src 32 })
  | 0xE1 => some (syncForm 2 { d := .dst 32, a := .src 32 })
  | 0xE2 => some (syncForm 2 { d := .dst 32, a := .src 64 })
  | 0xE4 => some (syncForm 2 { a := .src 64 })
  | 0xE5 | 0xE6 => some (syncForm 2 { d := .dst 32, a := .src 32, b := .src 32 })
  | 0xF0 => some { fabricForm 3 { a := .src 32, b := .src 64, c := .src 64 } with
      x21Err := fun _ _ x => firstErr (orErr (decide (x < 2 ^ 17)) Detail.reserved)
        (orErr (decide (1 ≤ x ∧ x ≤ 65536)) Detail.range) }
  | 0xF1 => some { fabricForm 3 { a := .src 32, b := .src 64, c := .src 32 } with
      x21Err := fun _ _ x => orErr (decide (x < 64)) Detail.reserved }
  | 0xF2 => some {
      words := 3, group := .fabric, tys := some fun _ => tysStore,
      specs := fun _ m _ => { a := .src 32, b := .src 64, c := datumSrc m.ty } }
  | 0xF3 => some (fabricForm 3 { a := .src 32, b := .src 64, c := .src 64 })
  | 0xF4 => some (fabricForm 2 { d := .dst 32, a := .src 32 })
  | 0xF5 => some (fabricForm 2 { d := .dst 64, a := .src 32 })
  | _ => none

/-- The form of an opcode (R211), or none where OP is unassigned. -/
def form (op : Nat) : Option Form :=
  if op < 0x60 then formLow op
  else if op < 0x80 then formFloat op
  else if op < 0xC0 then formMem op
  else formHigh op

/-- The opcode and the fields of an instruction of the ISA. The steps of the other agents have no word. -/
def Instr.opFields : Instr → Option (Nat × Fields)
  | .nop f => some (0x00, f)
  | .bra f => some (0x01, f)
  | .brx f => some (0x02, f)
  | .call f => some (0x03, f)
  | .callx f => some (0x04, f)
  | .ret f => some (0x05, f)
  | .exit f => some (0x06, f)
  | .reform f => some (0x07, f)
  | .reconv f => some (0x08, f)
  | .yield f => some (0x09, f)
  | .trap f => some (0x0A, f)
  | .trapretResume f => some (0x0B, f)
  | .trapretRetry f => some (0x0B, f)
  | .trapretSkip f => some (0x0B, f)
  | .assert f => some (0x0C, f)
  | .pause f => some (0x0D, f)
  | .sreg f => some (0x0E, f)
  | .swreg f => some (0x0F, f)
  | .iadd f => some (0x20, f)
  | .isub f => some (0x21, f)
  | .imul f => some (0x22, f)
  | .imad f => some (0x23, f)
  | .imulh f => some (0x24, f)
  | .imin f => some (0x25, f)
  | .imax f => some (0x26, f)
  | .iabs f => some (0x27, f)
  | .ineg f => some (0x28, f)
  | .isad f => some (0x29, f)
  | .iadd3 f => some (0x2A, f)
  | .lea f => some (0x2B, f)
  | .icmp f => some (0x2C, f)
  | .isel f => some (0x2D, f)
  | .mov f => some (0x2E, f)
  | .movl f => some (0x2F, f)
  | .and f => some (0x30, f)
  | .or f => some (0x31, f)
  | .xor f => some (0x32, f)
  | .not f => some (0x33, f)
  | .andn f => some (0x34, f)
  | .lop3 f => some (0x35, f)
  | .shl f => some (0x36, f)
  | .shr f => some (0x37, f)
  | .shra f => some (0x38, f)
  | .rot f => some (0x39, f)
  | .funnel f => some (0x3A, f)
  | .bfe f => some (0x3B, f)
  | .bfi f => some (0x3C, f)
  | .popc f => some (0x3D, f)
  | .clz f => some (0x3E, f)
  | .brev f => some (0x3F, f)
  | .plop f => some (0x40, f)
  | .pmov f => some (0x41, f)
  | .cvti f => some (0x42, f)
  | .idot4 f => some (0x43, f)
  | .prmt f => some (0x44, f)
  | .shfl f => some (0x48, f)
  | .vote f => some (0x49, f)
  | .ballot f => some (0x4A, f)
  | .wreduce f => some (0x4B, f)
  | .wscan f => some (0x4C, f)
  | .matchOp f => some (0x4D, f)
  | .elect f => some (0x4E, f)
  | .fadd f => some (0x60, f)
  | .fsub f => some (0x61, f)
  | .fmul f => some (0x62, f)
  | .fma f => some (0x63, f)
  | .fmin f => some (0x64, f)
  | .fmax f => some (0x65, f)
  | .fcmp f => some (0x66, f)
  | .fclass f => some (0x67, f)
  | .fscale f => some (0x68, f)
  | .frnd f => some (0x69, f)
  | .fsgn f => some (0x6A, f)
  | .hfma2 f => some (0x6B, f)
  | .hadd2 f => some (0x6C, f)
  | .hmul2 f => some (0x6D, f)
  | .fdot2 f => some (0x6E, f)
  | .fdot4 f => some (0x6F, f)
  | .rcps f => some (0x70, f)
  | .rsqs f => some (0x71, f)
  | .rcp f => some (0x72, f)
  | .rsq f => some (0x73, f)
  | .sqrt f => some (0x74, f)
  | .exp2 f => some (0x75, f)
  | .log2 f => some (0x76, f)
  | .sinp f => some (0x77, f)
  | .cosp f => some (0x78, f)
  | .tanh f => some (0x79, f)
  | .cvtf f => some (0x7A, f)
  | .cvtfi f => some (0x7B, f)
  | .cvtif f => some (0x7C, f)
  | .pack f => some (0x7D, f)
  | .unpack f => some (0x7E, f)
  | .cvttd f => some (0x7F, f)
  | .ld f => some (0x80, f)
  | .st f => some (0x81, f)
  | .ldacq f => some (0x82, f)
  | .strel f => some (0x83, f)
  | .atom f => some (0x84, f)
  | .atomc f => some (0x85, f)
  | .atomf f => some (0x86, f)
  | .red f => some (0x87, f)
  | .fence f => some (0x88, f)
  | .fencer f => some (0x89, f)
  | .pref f => some (0x8A, f)
  | .pdecl f => some (0xA0, f)
  | .penter f => some (0xA1, f)
  | .pleave f => some (0xA2, f)
  | .pfree f => some (0xA3, f)
  | .pstat f => some (0xA4, f)
  | .lease f => some (0xA6, f)
  | .unlease f => some (0xA7, f)
  | .lstat f => some (0xA8, f)
  | .cpy f => some (0xA9, f)
  | .cpy2d f => some (0xAA, f)
  | .cpytd f => some (0xAB, f)
  | .seal f => some (0xAC, f)
  | .waitb f => some (0xAD, f)
  | .kvcommit f => some (0xAE, f)
  | .slotinit f => some (0xB0, f)
  | .slotres f => some (0xB1, f)
  | .slottake f => some (0xB2, f)
  | .slotdone f => some (0xB3, f)
  | .slotpeek f => some (0xB4, f)
  | .slotfill f => some (0xB5, f)
  | .gres f => some (0xB8, f)
  | .gclr f => some (0xB9, f)
  | .embq f => some (0xBA, f)
  | .tdset f => some (0xC0, f)
  | .tdget f => some (0xC1, f)
  | .mloadw f => some (0xC2, f)
  | .mswap f => some (0xC3, f)
  | .mstream f => some (0xC4, f)
  | .mzero f => some (0xC5, f)
  | .mstore f => some (0xC6, f)
  | .mwait f => some (0xC7, f)
  | .mmask f => some (0xC8, f)
  | .mstat f => some (0xC9, f)
  | .mxop f => some (0xCA, f)
  | .mresume f => some (0xCB, f)
  | .bar f => some (0xD0, f)
  | .bara f => some (0xD1, f)
  | .barw f => some (0xD2, f)
  | .evset f => some (0xD3, f)
  | .evclr f => some (0xD4, f)
  | .evwait f => some (0xD5, f)
  | .evread f => some (0xD6, f)
  | .taskpost f => some (0xD7, f)
  | .taskend f => some (0xD8, f)
  | .sofput f => some (0xD9, f)
  | .sofget f => some (0xDA, f)
  | .stloop f => some (0xDB, f)
  | .stget f => some (0xDC, f)
  | .stadv f => some (0xDD, f)
  | .stjmp f => some (0xDE, f)
  | .waitl f => some (0xDF, f)
  | .stend f => some (0xE0, f)
  | .stqry f => some (0xE1, f)
  | .launch f => some (0xE2, f)
  | .launchdep f => some (0xE3, f)
  | .join f => some (0xE4, f)
  | .reggrow f => some (0xE5, f)
  | .regshrk f => some (0xE6, f)
  | .wbsend f => some (0xF0, f)
  | .amsg f => some (0xF1, f)
  | .rstore f => some (0xF2, f)
  | .rsig f => some (0xF3, f)
  | .wbchk f => some (0xF4, f)
  | .tmapq f => some (0xF5, f)
  | .resultWriteback .. => none
  | .l1FillArrival .. => none
  | .homeSliceWriteArrival .. => none
  | .homeSliceReadArrival .. => none
  | .homeSliceAtomicArrival .. => none
  | .gddr7ReadReturn .. => none
  | .storeAck .. => none
  | .grantRequest .. => none
  | .recall .. => none
  | .releaseNotice .. => none
  | .grant .. => none
  | .walkComplete .. => none
  | .mereageRelease .. => none
  | .pauseExpire .. => none
  | .barrierUnreachable .. => none
  | .taskGather .. => none
  | .fillComplete .. => none
  | .evictionComplete .. => none
  | .leaseExpiry .. => none
  | .courierCommandStart .. => none
  | .slotBytesLanded .. => none
  | .courierCommandComplete .. => none
  | .courierCommandFault .. => none
  | .matrixCommandStart .. => none
  | .matrixCommandComplete .. => none
  | .matrixCommandFault .. => none
  | .assistComplete .. => none
  | .teamDispatch .. => none
  | .swapOut .. => none
  | .swapIn .. => none
  | .teamMigration .. => none
  | .launchAccept .. => none
  | .constantCopy .. => none
  | .dlrDrain .. => none
  | .stagingRetry .. => none
  | .gridComplete .. => none
  | .reportDelivery .. => none
  | .handlerOverrun .. => none
  | .preemptReset .. => none
  | .preemptComplete .. => none
  | .uncorrectable .. => none
  | .containmentComplete .. => none
  | .remoteAck .. => none
  | .fabricNack .. => none
  | .remoteStoreArrival .. => none
  | .wbsendArrival .. => none
  | .rsigArrival .. => none
  | .amsgArrival .. => none
  | .packetForward .. => none
  | .packetAgeTick .. => none
  | .linkFailure .. => none
  | .linkUp .. => none
  | .hostUeWrite .. => none
  | .hostUeRead .. => none
  | .hostLaunch .. => none
  | .contextLoad .. => none
  | .contextUnload .. => none
  | .contextResume .. => none
  | .contextKill .. => none
  | .preempt .. => none
  | .flip .. => none
  | .xlateInval .. => none
  | .pinBudget .. => none
  | .telemetry .. => none
  | .portMode .. => none
  | .nocAvoid .. => none
  | .amLoad .. => none
  | .identity .. => none
  | .setId .. => none
  | .attest .. => none
  | .lifecycle .. => none
  | .hostReset .. => none
  | .unknownCommand .. => none
  | .powerGood => none
  | .bringUpStepDone .. => none
  | .powerThrottle .. => none
  | .junctionOvertemp => none
  | .inputVoltageFault => none

/-- Retain (R205): it names a field that the instruction uses and that holds a V operand. -/
def retainOk (sp : Specs) (f : Fields) : Bool :=
  match f.retain with
  | .none => true
  | .a => match sp.a, f.a with | .unused, _ => false | _, .v _ => true | _, _ => false
  | .b => match sp.b, f.b with | .unused, _ => false | _, .v _ => true | _, _ => false
  | .c => match sp.c, f.c with | .unused, _ => false | _, .v _ => true | _, _ => false

end Sys2Proof
end

