-- ==== Sys2Proof/Machine/Ops.lean ====
section
/-! DEFINITION. The named operations over the machine's objects and registers, the free choices, waves and meres, results
before a marker, and taking a trap. -/

namespace Sys2Proof.Machine

/-! ## Objects -/

def State.team? (s : State) (uid : Nat) : Option Team := s.teams.find? (·.uid == uid)

def State.updTeam (s : State) (uid : Nat) (f : Team → Team) : State :=
  { s with teams := updWhere (·.uid == uid) f s.teams }

def Team.thread? (t : Team) (tid : Nat) : Option Thread := t.threads.find? (·.tid == tid)

def Team.updThread (t : Team) (tid : Nat) (f : Thread → Thread) : Team :=
  { t with threads := updWhere (·.tid == tid) f t.threads }

def State.thread? (s : State) (uid tid : Nat) : Option Thread := (s.team? uid).bind (·.thread? tid)

def State.updThread (s : State) (uid tid : Nat) (f : Thread → Thread) : State :=
  s.updTeam uid fun t => t.updThread tid f

/-- The same update for several threads of a team. -/
def State.updThreads (s : State) (uid : Nat) (tids : List Nat) (f : Thread → Thread) : State :=
  s.updTeam uid fun t => { t with threads := updWhere (fun th => tids.contains th.tid) f t.threads }

def State.wave? (s : State) (wid : Nat) : Option Wave := s.waves.find? (·.wid == wid)

def State.updWave (s : State) (wid : Nat) (f : Wave → Wave) : State :=
  { s with waves := updWhere (·.wid == wid) f s.waves }

def State.ctx? (s : State) (num : Nat) : Option Context := s.contexts.find? (·.num == num)

def State.updCtx (s : State) (num : Nat) (f : Context → Context) : State :=
  { s with contexts := updWhere (·.num == num) f s.contexts }

def State.grid? (s : State) (gid : Nat) : Option Grid := s.grids.find? (·.gid == gid)

def State.updGrid (s : State) (gid : Nat) (f : Grid → Grid) : State :=
  { s with grids := updWhere (·.gid == gid) f s.grids }

/-- The context number of a team. -/
def State.ctxOf (s : State) (t : Team) : Nat := ((s.grid? t.gid).map (·.ctx)).getD 0

/-- The die of a team. -/
def State.dieOf (s : State) (uid : Nat) : Nat := ((s.team? uid).map (·.die)).getD 0

/-- Package-wide cluster and core numbers (R2). -/
def Team.pkCluster (t : Team) : Nat := t.die * 32 + t.cluster
def Team.pkCore (t : Team) : Nat := t.pkCluster * 4 + t.core

/-- The translation buffers of a team's instructions, and of its engines (R16). -/
def Team.tlb (t : Team) : TlbUnit := .core t.pkCore
def Team.engTlb (t : Team) : TlbUnit := .cluster t.pkCluster

/-- Home waves of a team of n threads (R153). -/
def homeWaves (n : Nat) : Nat := (n + 31) / 32

/-- Threads of one team (R152). -/
def LaunchRec.teamSize (r : LaunchRec) : Nat := r.tx * r.ty * r.tz

/-- Teams of a grid. -/
def LaunchRec.teams (r : LaunchRec) : Nat := r.gx * r.gy * r.gz

/-- CYCLES of a die (R203). -/
def State.now (s : State) (die : Nat) : Nat := s.cycles.getD die 0

/-- The state that has used a number of the model's sequence. -/
def State.tick (s : State) : State := { s with seq := s.seq + 1 }

/-- A free choice below n (log 6): the one of this step that a list names. -/
def State.choose (s : State) (k : List Nat) (n : Nat) : Nat := Config.free s.freeCtr k % n

/-- A free number of this step. -/
def State.freeNat (s : State) (k : List Nat) : Nat := Config.free s.freeCtr k

/-- Whether a port carries messages of a host: it is in UE mode, and its link is up (R393). -/
def State.hears (s : State) (port : Nat) : Bool := (s.ports[port]?).any fun p => !p.waybillMode && p.up

/-- A message leaves for a host by a port in UE mode, in one frame or more (R394, R396; log 100). -/
def State.sendOut (s : State) (o : Outgoing) : State :=
  { s with
    ports := s.ports.modify o.port fun p => { p with sent := p.sent + 1 + s.freeNat [30, o.port, s.outbox.length] }
    outbox := s.outbox ++ [o] }

/-- A message for a host is sent; by a port that carries none of them now it is sent later (R393; DESIGN CHOICE: log 127). -/
def State.post (s : State) (o : Outgoing) : State :=
  if s.hears o.port then s.sendOut o else { s with unsent := s.unsent ++ [o] }

/-- The messages that have waited for their port, in order. -/
def State.postUnsent (s : State) (os : List Outgoing) : State :=
  match os with
  | [] => s
  | o :: rest => State.postUnsent (if s.hears o.port then { s.sendOut o with unsent := s.unsent.erase o } else s) rest

/-- A message of a host has arrived at a port, in one frame or more. -/
def State.heard (s : State) (port : Nat) : State :=
  { s with ports := s.ports.modify port fun p => { p with received := p.received + 1 + s.freeNat [31, port] } }

/-- An event of the current cycle of a die, with its place among those that it may meet there (log 99). -/
def State.noteAct (s : State) (die : Nat) (k : List Nat) (rank : Nat) : State := { s with marks := ⟨die, k, rank⟩ :: s.marks }

/-- Whether an event of the current cycle comes too late: one that has its place after it has happened. -/
def State.tooLate (s : State) (k : List Nat) (rank : Nat) : Bool := s.marks.any fun m => m.key == k && decide (rank < m.rank)

/-- Whether an event of a key has happened in the current cycle. -/
def State.happened (s : State) (k : List Nat) : Bool := s.marks.any (·.key == k)

/-- An effect takes its place in the current cycle of a die; where it comes too late for it, it leaves a mark of that, and the turn
that came to it does not happen (log 99). -/
def State.takePlace (s : State) (die : Nat) (k : List Nat) (rank : Nat) : State :=
  s.noteAct die (if s.tooLate k rank then [99] else k) rank

/-- Whether an effect came too late in its cycle. -/
def State.late (s : State) : Bool := s.happened [99]

/-- What comes about at the end of a step, unless it comes too late in its cycle: then it comes about later. -/
def State.inTime (s : State) (f : State → State) : State :=
  let t := f s
  if t.late then s else t

/-- The name of a choice about a lane's operand field (0 to 4 for D, A, B, C, E; 5 for the guard) and word. -/
def saltOf (lane field word : Nat) : List Nat := [0, lane, field, word]

/-! ## Registers -/

/-- What an operand field's result writes (R198): the V registers it occupies, an S register zero-extended, or nothing. -/
def operandWrites (o : Operand) (w val : Nat) : List RegWrite :=
  match o with
  | .v i => (iota 0 (max 1 (w / 32))).map fun k => ⟨.v (i.toNat + k), bits val (32 * k) 32⟩
  | .s i => [⟨.s i.toNat, val % 2 ^ (if w ≤ 32 then 32 else 64)⟩]
  | _ => []

/-- The predicate a destination field names (R200): code 7 names none. -/
def predWrites (o : Operand) (val : Bool) : List RegWrite :=
  match o with
  | .lit x => if x.toNat < 7 then [⟨.p x.toNat, val.toNat⟩] else []
  | _ => []

/-- A register write of a thread. A V register at or beyond VREGS takes none (R341). -/
def Team.applyWrite (t : Team) (tid : Nat) (w : RegWrite) : Team :=
  match w.dest with
  | .v i => if i < t.vregs then t.updThread tid fun th => { th with v := Sparse.put 0 th.v i (BitVec.ofNat 32 w.val) } else t
  | .s i => { t with s := Sparse.put 0 t.s i (BitVec.ofNat 64 w.val) }
  | .p i => t.updThread tid fun th =>
      { th with p := if w.val % 2 = 1 then th.p ||| BitVec.ofNat 7 (2 ^ i) else th.p &&& ~~~ BitVec.ofNat 7 (2 ^ i) }
  | .iter => t.updThread tid fun th => { th with iterReg := BitVec.ofNat 32 w.val }
  | .stage | .vregs | .localSize => t

def Team.applyWrites (t : Team) (tid : Nat) (ws : List RegWrite) : Team :=
  match ws with
  | [] => t
  | w :: rest => Team.applyWrites (t.applyWrite tid w) tid rest

/-- The registers that an unbound result will write. -/
def Pend.covers (p : Pend) (d : Dest) : Bool :=
  p.writes.any (·.dest == d) || (decide (0 < p.parts) && (operandWrites p.dst p.ty.regBits 0).any (·.dest == d))

/-- What a read of a register returns while results are outstanding (R207): for each bound one that covers it, the result
or what stood before, as the free choices say. -/
def pendValue (s : State) (salt : List Nat) (ps : List Pend) (d : Dest) (old : Nat) : Nat :=
  match ps with
  | [] => old
  | p :: rest =>
    let v := match p.writes.find? (·.dest == d) with
      | some w => if p.parts = 0 ∧ s.choose (p.id :: salt) 2 = 1 then w.val else old
      | none => old
    pendValue s salt rest d v

def Thread.readV (s : State) (salt : List Nat) (th : Thread) (i : Nat) : Nat :=
  pendValue s salt th.pend (.v i) (Sparse.get 0 th.v i).toNat

def Thread.readP (s : State) (salt : List Nat) (th : Thread) (n : Nat) : Bool :=
  pendValue s salt th.pend (.p n) (if th.p.getLsbD n then 1 else 0) % 2 == 1

/-- An S register is the team's: the outstanding results of each of its threads count. -/
def Team.readS (s : State) (salt : List Nat) (t : Team) (i : Nat) : Nat :=
  pendValue s salt (t.threads.flatMap (·.pend)) (.s i) (Sparse.get 0 t.s i).toNat

/-- Opcodes of fixed latency (R207). -/
def fixedLatency (op : Nat) : Bool := decide (op < 0x48 ∨ (0x60 ≤ op ∧ op < 0x70) ∨ (0x7A ≤ op ∧ op < 0x80))

/-- The writes of several threads of a wave, in increasing lane order, with those to an S register kept from the lowest lane
only (R202). -/
def lowestLane (taken : List Dest) (ws : List (Nat × List RegWrite)) : List (Nat × List RegWrite) :=
  match ws with
  | [] => []
  | (tid, l) :: rest =>
    let mine := l.filter fun w => match w.dest with | .s _ => !taken.contains w.dest | _ => true
    (tid, mine) :: lowestLane (taken ++ mine.map (·.dest)) rest

def Team.applyAll (t : Team) (ws : List (Nat × List RegWrite)) : Team :=
  match ws with
  | [] => t
  | (tid, l) :: rest => Team.applyAll (t.applyWrites tid l) rest

/-- Results of variable latency whose values are known: outstanding from now on (R207). -/
def State.pendAll (s : State) (uid : Nat) (ws : List (Nat × List RegWrite)) : State :=
  match ws with
  | [] => s
  | (tid, l) :: rest =>
    State.pendAll (if l = [] then s
      else { s.updThread uid tid (fun th => { th with pend := th.pend ++ [{ id := s.seq, writes := l }] }) with seq := s.seq + 1 })
      uid rest

/-- The outstanding results for a register of a thread; an S register is the team's. -/
def Team.outstanding (t : Team) (tid : Nat) (d : Dest) : List Pend :=
  (t.threads.flatMap fun th => match d with
    | .s _ => th.pend
    | _ => if th.tid = tid then th.pend else []).filter (·.covers d)

/-- The writes to registers for which an earlier result is outstanding: which of the two the register ends with is open (R207). -/
def Team.contested (t : Team) (ws : List (Nat × List RegWrite)) : List (Nat × List RegWrite) :=
  ws.map fun x => (x.1, x.2.filter fun w => !(t.outstanding x.1 w.dest).isEmpty)

/-- Results of an instruction for the threads of a wave, in increasing lane order, written at once or left outstanding as
its opcode's class says; one that is written at once where an earlier one is outstanding may still be the last (R207). -/
def State.results (s : State) (op uid : Nat) (ws : List (Nat × List RegWrite)) : State :=
  let ws := lowestLane [] ws
  if fixedLatency op then
    (s.updTeam uid fun t => t.applyAll ws).pendAll uid (((s.team? uid).map fun t => t.contested ws).getD [])
  else s.pendAll uid ws

/-- A write of a bound result: its thread, the result's number, the write. -/
structure Landing where
  tid : Nat
  id : Nat
  write : RegWrite
  deriving DecidableEq, Repr

/-- Whether two writes are to one register. -/
def Landing.meets (a b : Landing) : Bool :=
  a.write.dest == b.write.dest && (a.tid == b.tid || match a.write.dest with
    | .s _ => true
    | _ => false)

/-- The writes that registers end with, one for each. Of several for one register any may be it (R207): each is, unless the choice
passes over it to a later one. -/
def lastLandings (pick : Nat → Nat → Nat) (n : Nat) (done ws : List Landing) : List Landing :=
  match ws with
  | [] => []
  | w :: rest =>
    if done.any w.meets || (rest.any w.meets && pick w.id n % 2 == 0) then lastLandings pick (n + 1) done rest
    else w :: lastLandings pick (n + 1) (w :: done) rest

/-- The writes of the bound results of a thread. -/
def Thread.landings (th : Thread) : List Landing :=
  (th.pend.filter (·.parts == 0)).flatMap fun p => p.writes.map fun w => ⟨th.tid, p.id, w⟩

/-- Writes every bound result of some threads (R206). -/
def Team.flushAll (pick : Nat → Nat → Nat) (t : Team) (tids : List Nat) : Team :=
  let ths := t.threads.filter fun th => tids.contains th.tid
  let ws := lastLandings pick 0 [] (ths.flatMap Thread.landings)
  let settled := fun (th : Thread) => { th with pend := th.pend.filter fun p => p.parts != 0 }
  ({ t with threads := updWhere (fun th => tids.contains th.tid) settled t.threads } : Team).applyAll
    (ws.map fun w => (w.tid, [w.write]))

def Team.flush (pick : Nat → Nat → Nat) (t : Team) (tid : Nat) : Team := t.flushAll pick [tid]

/-- The choices of the results that come last, as results of this step are written (log 76). -/
def State.lastResult (s : State) (id n : Nat) : Nat := s.freeNat [32, id, n]

/-- The results of the threads that are not bound. -/
def Team.unbound (t : Team) (tids : List Nat) : List Nat :=
  (t.threads.filter fun th => tids.contains th.tid).flatMap fun th => (th.pend.filter (·.parts != 0)).map (·.id)

/-! ## Waves and meres -/

def Wave.tids (w : Wave) : List Nat := w.lanes.map (·.2)

/-- ISSUEMASK (R203). -/
def Wave.mask (w : Wave) : Nat := (w.lanes.map fun l => 2 ^ l.1).sum

/-- The quadrant of the home wave of the lowest THREADID (R162). -/
def quadrantOf (tids : List Nat) : Nat := (tids.min?.getD 0) / 32 % 4

/-- A new issue wave. -/
def State.newWave (s : State) (uid : Nat) (lanes : List (Nat × Nat)) : Wave :=
  { wid := s.seq, uid, lanes, quadrant := quadrantOf (lanes.map (·.2)), age := s.seq }

def State.addWave (s : State) (uid : Nat) (lanes : List (Nat × Nat)) : State :=
  { s with waves := s.waves ++ [s.newWave uid lanes], seq := s.seq + 1 }

/-- Threads numbered from lane 0 upward in increasing THREADID order (R162). -/
def packedLanes (tids : List Nat) : List (Nat × Nat) :=
  let l := sortBy id tids
  (iota 0 l.length).zip l

/-- Threads at their home lanes (R164, R167). -/
def homeLanes (tids : List Nat) : List (Nat × Nat) := (sortBy (· % 32) tids).map fun t => (t % 32, t)

/-- Threads that leave a wave; a wave left empty is gone (R159). -/
def State.leaveWave (s : State) (wid : Nat) (tids : List Nat) : State :=
  let s := s.updWave wid fun w => { w with lanes := w.lanes.filter fun l => !tids.contains l.2 }
  { s with waves := s.waves.filter fun w => w.wid != wid || w.lanes != [] }

/-- A thread that is ready to be filed at an address (R161). -/
def State.file (s : State) (uid tid : Nat) (pc : DWord) : State :=
  match s.team? uid with
  | none => s
  | some t => s.updThread uid tid fun th => { th with
      pc, blocked := none, filing := some (pc, s.now t.die),
      hcount := if th.handler ∧ th.pc ≠ pc then th.hcount + 1 else th.hcount }

/-- What a blocked thread waits for. -/
def Thread.wait? (th : Thread) : Option Wait :=
  match th.blocked with
  | some b => some b.wait
  | none => none

/-- Whether results numbered in a list are all bound in a team. -/
def Team.boundAll (t : Team) (ids : List Nat) : Bool :=
  t.threads.all fun th => th.pend.all fun p => p.parts == 0 || !ids.contains p.id

/-- The wait is over: the thread goes on after its instruction, through a mere (R159, R161), once the results that its marker
covers are written (R206). -/
def State.wake (s : State) (uid tid : Nat) : State :=
  match s.team? uid with
  | none => s
  | some t =>
    match t.thread? tid with
    | none => s
    | some th =>
      match th.blocked with
      | none => s
      | some b =>
        let next := th.pc + BitVec.ofNat 64 b.len
        let s := s.updThread uid tid fun th => { th with seat := b.seat }
        match b.marker with
        | none => s.file uid tid next
        | some ids =>
          if t.boundAll (ids ++ t.unbound [tid]) then (s.updTeam uid fun t => t.flush s.lastResult tid).file uid tid next
          else s.updThread uid tid fun th => { th with
            blocked := some { b with wait := .results, marker := some (ids ++ t.unbound [tid]) } }

/-- MEREAGE in cycles (R162). -/
def LaunchRec.age (r : LaunchRec) : Nat := if r.mereAge = 0 then 64 else r.mereAge

/-- Files one waiting thread, if a mere takes it (R161). -/
def State.fileOne (s : State) (t : Team) (th : Thread) : State :=
  match th.filing with
  | none => s
  | some (pc, c) =>
    let key := fun (m : Mere) => m.core == t.pkCore && m.uid == t.uid && m.pc == pc && m.handler == th.handler
    let done := fun (s : State) => s.updThread t.uid th.tid fun th => { th with filing := none }
    match s.meres.find? key with
    | some m =>
      if m.threads.length < 32 then
        done { s with meres := updWhere key (fun m => { m with threads := m.threads ++ [(th.tid, c)] }) s.meres }
      else s
    | none =>
      if (s.meres.filter (·.core == t.pkCore)).length < 16 then
        done { s with meres := s.meres ++ [⟨t.pkCore, t.uid, pc, th.handler, [(th.tid, c)]⟩] }
      else s

/-- A mere releases its threads as one wave (R162). -/
def State.releaseMere (s : State) (m : Mere) : State :=
  ({ s with meres := s.meres.filter fun x => !(x.core == m.core && x.uid == m.uid && x.pc == m.pc && x.handler == m.handler) }).addWave
    m.uid (packedLanes (m.threads.map fun (x : Nat × Nat) => x.1))

def releaseFull (s : State) (ms : List Mere) : State :=
  match ms with
  | [] => s
  | m :: rest => releaseFull (if 32 ≤ m.threads.length then s.releaseMere m else s) rest

def fileAll (s : State) (ths : List (Team × Thread)) : State :=
  match ths with
  | [] => s
  | x :: rest => fileAll (s.fileOne x.1 x.2) rest

/-- Whether two threads left one wave in one instruction. -/
def Seat.together (a b : Seat) : Bool := a.wid == b.wid && a.moment == b.moment

/-- A wave that left as a whole to wait and wakes as a whole is formed again, each thread in its lane (log 17). -/
def State.reform (s : State) (uid : Nat) (seat : Seat) : State :=
  match s.team? uid with
  | none => s
  | some t =>
    let ths := t.threads.filter fun th => th.filing.isSome && th.seat.any seat.together
    if ths.length = seat.size ∧ (ths.all fun th => th.pc = (ths.head?.map (·.pc)).getD 0 ∧ th.handler = (ths.head?.map (·.handler)).getD false) then
      let lanes := sortBy (·.1) (ths.filterMap fun th => th.seat.map fun g => (g.lane, th.tid))
      (s.updThreads uid (ths.map (·.tid)) fun th => { th with filing := none, seat := none }).addWave uid lanes
    else s.updThreads uid (ths.map (·.tid)) fun th => { th with seat := none }

/-- The wave of every place that a thread has left which is ready to be filed. -/
def reformAll (s : State) (gs : List (Nat × Seat)) : State :=
  match gs with
  | [] => s
  | g :: rest => reformAll (s.reform g.1 g.2) rest

/-- The cycle at which a mere's oldest thread has been filed for MEREAGE cycles (R162). -/
def State.mereTime (s : State) (m : Mere) : Nat :=
  let age := (((s.team? m.uid).bind fun t => s.grid? t.gid).map (·.lrec.age)).getD 64
  (m.threads.map fun x => x.2 + age).min?.getD 0

/-- A mere whose oldest thread has been filed for MEREAGE cycles. -/
def State.mereDue (s : State) (m : Mere) : Bool :=
  match s.team? m.uid with
  | none => false
  | some t => m.threads != [] && decide (s.mereTime m ≤ s.now t.die)

def releaseAll (s : State) (ms : List Mere) : State :=
  match ms with
  | [] => s
  | m :: rest => releaseAll (s.releaseMere m) rest

/-- The meres that are due release their waves, the first that came due first (R162, R163). -/
def State.releaseDue (s : State) : State := releaseAll s (sortBy s.mereTime (s.meres.filter s.mereDue))

/-- Teams on the cores of some dies. -/
def State.teamsOn (s : State) (dies : List Nat) : List Team :=
  s.teams.filter fun t => t.status == .resident && dies.contains t.die

/-- Threads of some teams that are ready to be filed, in order of THREADID (R163); of one THREADID, the older team's first (DESIGN
CHOICE: log 92). -/
def filers (ts : List Team) : List (Team × Thread) :=
  sortBy (fun x => x.2.tid) (ts.flatMap fun t => (t.threads.filter (·.filing.isSome)).map fun th => (t, th))

/-- The places that the threads have left which are ready to be filed. -/
def seatsOf (ts : List Team) : List (Nat × Seat) := (filers ts).filterMap fun x => x.2.seat.map fun g => (x.1.uid, g)

/-- At the end of a cycle of some dies: new filings in order of THREADID, then the release by count (R163). The releases by age
of the cycle have gone before. -/
def State.runMeres (s : State) (dies : List Nat) : State :=
  let s := reformAll s (seatsOf (s.teamsOn dies))
  let s := fileAll s (filers (s.teamsOn dies))
  releaseFull s s.meres

/-! ## Containment (R379) -/

/-- Whether a context is being killed. -/
def Context.dying (c : Context) : Bool :=
  match c.status with
  | .dying .. => true
  | _ => false

/-- Every wave of a context stops, and its teams with their queued and stopped engine commands, pooled tasks, pending launches,
staged records and remote operations that are not sent are discarded (R136, R379 steps 1 and 2). Stores, started commands and remote
operations in flight stay. -/
def State.stopWork (s : State) (num : Nat) : State :=
  let uids := (s.teams.filter fun t => s.ctxOf t == num).map (·.uid)
  let gone := (s.couriers.filter fun k => k.ctx == num && k.state != .running).map (·.id)
    ++ (s.matrix.filter fun k => k.ctx == num && k.state != .running).map (·.id)
  { s with
    waves := s.waves.filter fun w => !uids.contains w.uid
    meres := s.meres.filter fun m => !uids.contains m.uid
    teams := s.teams.filter fun t => !uids.contains t.uid
    deferred := s.deferred.filter fun d => !uids.contains d.uid
    msgs := s.msgs.filter fun m => !(uids.contains m.uid && match m.what with | .l1Atomic .. => true | .lookup .. => true | _ => false)
    couriers := s.couriers.filter fun k => !gone.contains k.id
    matrix := s.matrix.filter fun k => !gone.contains k.id
    engines := s.engines.filter fun e => !uids.contains e.uid
    embargoes := s.embargoes.filter fun e => !gone.contains e.cmd
    pool := s.pool.filter (·.ctx != num)
    pendingLaunches := s.pendingLaunches.filter (·.ctx != num)
    staging := s.staging.filter (·.ctx != num)
    remotes := s.remotes.filter fun r => r.ctx != num || r.sent
    admission := s.admission.filter (·.ctx != num)
    marks := (s.pendingLaunches.filter (·.ctx == num)).map (fun p => (⟨p.cluster / 32, [34, p.cluster], 0⟩ : Mark))
      ++ (s.pool.filter (·.ctx == num)).map (fun k => (⟨k.cluster / 32, [35, k.cluster], 0⟩ : Mark)) ++ s.marks }

/-- A context is killed (R379): its work stops at once. A command in progress for it ends with a status that nothing states. -/
def State.kill (s : State) (num : Nat) (r : StopRecord) (msg : Option CmdHdr := none) : State :=
  match s.ctx? num with
  | none => s
  | some c =>
    if c.dying then s
    else
      let go := fun (c : Context) =>
        { c with status := .dying msg, stopRec := some r, reports := [], handling := none, unloading := none, joinRetries := [] }
      let s := match c.unloading with
        | some h => s.post ⟨h.port, h.host, num, h.tag, 0x03, s.freeNat [5, num] % 2 ^ 32, []⟩
        | none => s
      let s := match c.status with
        | .preempting _ h => s.post ⟨h.port, h.host, num, h.tag, 0x06, s.freeNat [5, num] % 2 ^ 32, []⟩
        | _ => s
      ((s.updCtx num go).stopWork num).takePlace 0 [15, num] 0

/-- The thread that a stop record names (R376). -/
def State.named (s : State) (t : Team) (tid pc : Nat) : Named :=
  let r := ((s.grid? t.gid).map (·.lrec)).getD {}
  { tid, gid := t.gid, x := t.index % r.gx, y := t.index / r.gx % r.gy, z := t.index / (r.gx * r.gy), pc,
    cycles := s.now t.die, die := t.die, cluster := t.cluster, core := t.core }

/-! ## Taking a trap (R370 to R372) -/

/-- TRAPCAUSE (R371). -/
def trapCauseWord (cause : Nat) (own report : Bool) : Word :=
  BitVec.ofNat 32 (cause + own.toNat * 256 + report.toNat * 512)

/-- A thread enters its handler (R370, R243). `info` is none for a thread that raised nothing. -/
def Thread.enter (th : Thread) (entry pc : DWord) (cause mask : Nat) (info : Option Nat) : Thread :=
  { th with
    trapPc := pc, trapCause := trapCauseWord cause info.isSome false, trapInfo := BitVec.ofNat 64 (info.getD 0),
    resumePc := pc, hcount := 0, trapMask := BitVec.ofNat 32 mask, handler := true, pc := entry }

/-- The threads of a wave whose results are bound enter the handler; or the context is killed, where the trap is nested
(R372) or TRAPENTRY is zero (R370). `infos` names the threads that raised the cause, with their TRAPINFO. -/
def State.enterTrap (s : State) (w : Wave) (t : Team) (c : Context) (pc : DWord) (cause : Nat) (infos : List (Nat × Nat)) :
    State :=
  let first := (infos.head?).getD ((w.tids.head?).getD 0, 0)
  if t.threads.any fun th => w.tids.contains th.tid && th.handler then
    s.kill c.num ⟨2, cause, true, some (s.named t first.1 pc.toNat), first.2⟩
  else if c.trapEntry = 0 then
    s.kill c.num ⟨2, cause, false, some (s.named t first.1 pc.toNat), first.2⟩
  else
    let s := s.updTeam t.uid fun t =>
      let t := t.flushAll s.lastResult w.tids
      let enter := fun (th : Thread) =>
        th.enter c.trapEntry pc cause w.mask ((infos.find? fun (x : Nat × Nat) => x.1 == th.tid).map fun x => x.2)
      { t with threads := updWhere (fun th => w.tids.contains th.tid) enter t.threads }
    (s.updWave w.wid fun w => { w with park := none, since := none, waiting := false, age := s.seq }).tick

/-- A trap raised in a wave (R370). Before entry the wave's outstanding results are written (R207): while one is not bound,
the wave is parked with its trap. -/
def State.trapThis (s : State) (w : Wave) (pc : DWord) (cause : Nat) (infos : List (Nat × Nat)) : State :=
  match s.team? w.uid with
  | none => s
  | some t =>
    match s.ctx? (s.ctxOf t) with
    | none => s
    | some c =>
      if t.unbound w.tids = [] then s.enterTrap w t c pc cause infos
      else s.updWave w.wid fun w => { w with park := some { pc, ops := t.unbound w.tids, mark := true, refused := infos, cause } }

/-- A trap raised by an instruction of a wave. -/
def State.trapWave (s : State) (wid : Nat) (pc : DWord) (cause : Nat) (infos : List (Nat × Nat)) : State :=
  match s.wave? wid with
  | none => s
  | some w => s.trapThis w pc cause infos

/-- Blocked threads of a team take a trap at the instructions they wait in: one wave for each home wave and address
(log 14), in trap order. -/
def State.trapGroup (s : State) (uid : Nat) (tids : List Nat) (pc : DWord) (cause : Nat) (infos : List (Nat × Nat)) : State :=
  let s := s.updThreads uid tids fun th => { th with blocked := none, filing := none }
  (s.addWave uid (homeLanes tids)).trapThis (s.newWave uid (homeLanes tids)) pc cause infos

/-- One blocked thread takes a trap at the instruction it waits in, alone (R159), at ISSUELANE 0 (DESIGN CHOICE: log 118). -/
def State.trapAlone (s : State) (uid tid : Nat) (cause info : Nat) : State :=
  match s.thread? uid tid with
  | none => s
  | some th =>
    let s := s.updThread uid tid fun th => { th with blocked := none, filing := none }
    (s.addWave uid [(0, tid)]).trapThis (s.newWave uid [(0, tid)]) th.pc cause [(tid, info)]

/-- A report joins a context's queue (R373); where no handler team can receive it, the context is killed. An agent
reports only where the queue has room (`State.reportRoom`). -/
def State.report (s : State) (num : Nat) (r : Report) : State :=
  match s.ctx? num with
  | none => s
  | some c =>
    if c.dying then s
    else
      let alive := match c.fhGid with
        | some g => s.teams.any fun t => t.gid == g && t.index == 0 && (!t.started || t.threads.any (·.tid == 0))
        | none => false
      if alive then s.updCtx num fun c => { c with reports := c.reports ++ [r] }
      else s.kill num ⟨2, r.cause, false, none, r.info⟩

/-! ## Cause codes (R374) -/

def Cause.illegalEncoding : Nat := 0x01
def Cause.illegalOpcode : Nat := 0x02
def Cause.regRange : Nat := 0x03
def Cause.misalignedAtomic : Nat := 0x04
def Cause.barrierUnreachable : Nat := 0x05
def Cause.stageBackward : Nat := 0x06
def Cause.stageMisuse : Nat := 0x07
def Cause.assert : Nat := 0x08
def Cause.trapInsn : Nat := 0x09
def Cause.privilege : Nat := 0x0A
def Cause.xlate : Nat := 0x10
def Cause.permission : Nat := 0x11
def Cause.polderExpired : Nat := 0x12
def Cause.embargo : Nat := 0x13
def Cause.parcelViolation : Nat := 0x14
def Cause.localRange : Nat := 0x15
def Cause.courierFault : Nat := 0x18
def Cause.matrixFault : Nat := 0x19
def Cause.deadletterFault : Nat := 0x1A
def Cause.waybillCheck : Nat := 0x20
def Cause.fabricNack : Nat := 0x21
def Cause.reedAbort : Nat := 0x22
def Cause.uncorrectable : Nat := 0x30
def Cause.handlerOverrun : Nat := 0x31
def Cause.preemptReset : Nat := 0x32
def Cause.hostKill : Nat := 0x33

end Sys2Proof.Machine
end

