-- ==== Sys2Proof/Machine/Operands.lean ====
section
/-! DEFINITION. The operand forms (R197 to R203), the guard (R204), checks 6 and 7 of R213, and what every instruction of the
ISA shares: the wave that executes it, its participants, and how the wave goes on. -/

namespace Sys2Proof.Machine

/-- An instruction in execution: the state at its issue, the wave with its team, grid and context, the instruction's address,
length, opcode and fields, and its participants (the active threads whose guard holds) by lane. -/
structure Issue where
  s : State
  wave : Wave
  team : Team
  grid : Grid
  ctx : Context
  pc : DWord
  len : Nat
  op : Nat
  f : Fields
  parts : List (Nat × Thread)

/-- The active threads of a wave, by lane. -/
def Team.active (t : Team) (w : Wave) : List (Nat × Thread) :=
  w.lanes.filterMap fun l => (t.thread? l.2).map fun th => (l.1, th)

/-- Whether a thread's guard holds (R204). -/
def guardHolds (g : Guard) (s : State) (lane : Nat) (th : Thread) : Bool :=
  match g with
  | .always => true
  | .pred n neg => th.readP s (saltOf lane 5 0) n.val != neg

/-! ## Sources -/

/-- STAGE (R203, R174): the counter of the iteration held, or 255. -/
def Team.stageOf (t : Team) (th : Thread) : Nat :=
  match th.held, t.board with
  | some i, some b => Sparse.get 0 b.counters (i % 64)
  | _, _ => 255

/-- The value of a special register (R203), of its own width. -/
def Issue.special (x : Issue) (salt : List Nat) (lane : Nat) (th : Thread) (r : Special) : Nat :=
  let l := x.grid.lrec
  match r with
  | .threadId => th.tid
  | .laneId => th.tid % 32
  | .waveId => th.tid / 32
  | .issueLane => lane
  | .issueMask => x.wave.mask
  | .teamIdX => x.team.index % l.gx
  | .teamIdY => x.team.index / l.gx % l.gy
  | .teamIdZ => x.team.index / (l.gx * l.gy)
  | .teamDimX => l.tx
  | .teamDimY => l.ty
  | .teamDimZ => l.tz
  | .gridDimX => l.gx
  | .gridDimY => l.gy
  | .gridDimZ => l.gz
  | .gridId => x.grid.gid
  | .depth => x.grid.depth
  | .clusterId => x.team.cluster
  | .coreId => x.team.core
  | .dieId => x.team.die
  | .ctxId => x.grid.ctx
  | .cycles => x.s.now x.team.die
  | .iter => pendValue x.s salt th.pend .iter th.iterReg.toNat
  | .stage => pendValue x.s salt th.pend .stage (x.team.stageOf th)
  | .taskArg => th.taskArg.toNat
  | .vregs => pendValue x.s salt (x.team.threads.flatMap (·.pend)) .vregs x.team.vregs
  | .localSize => pendValue x.s salt (x.team.threads.flatMap (·.pend)) .localSize x.team.localSize
  | .trapCause => th.trapCause.toNat
  | .trapPc => th.trapPc.toNat
  | .trapInfo => th.trapInfo.toNat
  | .deviceId => x.s.deviceId.toNat

/-- A word of a constant bank as the grid's snapshot holds it (R28). -/
def Grid.const (g : Grid) (i : Nat) : Nat := (Sparse.get 0 g.consts i).toNat

/-- What an operand gives a thread at a width (R197 to R199, R203): a literal sign-extended, a narrower register
zero-extended. -/
def Issue.val (x : Issue) (field lane : Nat) (th : Thread) (o : Operand) (w : Nat) : Nat :=
  (match o with
    | .v i => ((iota 0 (max 1 (w / 32))).map fun k => th.readV x.s (saltOf lane field 0) (i.toNat + k) * 2 ^ (32 * k)).sum
    | .s i => x.team.readS x.s (saltOf lane field 0) i.toNat
    | .sr r => x.special (saltOf lane field 0) lane th r
    | .k i => ((iota 0 (max 1 (w / 32))).map fun k => x.grid.const (i.toNat + k) * 2 ^ (32 * k)).sum
    | .lit v => wrap w v.toInt) % 2 ^ w

def Issue.a (x : Issue) (lt : Nat × Thread) (w : Nat) : Nat := x.val 1 lt.1 lt.2 x.f.a w
def Issue.b (x : Issue) (lt : Nat × Thread) (w : Nat) : Nat := x.val 2 lt.1 lt.2 x.f.b w
def Issue.c (x : Issue) (lt : Nat × Thread) (w : Nat) : Nat := x.val 3 lt.1 lt.2 x.f.c w
/-- The old value of D, read as a source (R244). -/
def Issue.dOld (x : Issue) (lt : Nat × Thread) (w : Nat) : Nat :=
  match x.f.d with
  | .lit _ => 0
  | d => x.val 0 lt.1 lt.2 d w

/-- The fourth operand of PENTER and SOFPUT (R210). -/
def fieldE (f : Fields) : Operand := (Operand.ofCode (f.x21.toNat % 2 ^ 11)).getD .unused

def Issue.e (x : Issue) (lt : Nat × Thread) (w : Nat) : Nat := x.val 4 lt.1 lt.2 (fieldE x.f) w

/-- A floating-point source (R199): a literal is the integer's value in the format. -/
def Issue.fbits (x : Issue) (field : Nat) (lt : Nat × Thread) (o : Operand) (ty : Ty) : Nat :=
  match o with
  | .lit v => (FVal.ofInt v.toInt).round ty .rn false
  | o => x.val field lt.1 lt.2 o ty.regBits % 2 ^ ty.bits

/-- A packed source of two 16-bit elements, or four of 8 bits: a literal stands in both halves (R199). -/
def Issue.packed (x : Issue) (field : Nat) (lt : Nat × Thread) (o : Operand) (ty : Ty) : Nat :=
  match o with
  | .lit v => let h := (FVal.ofInt v.toInt).round ty .rn false; h + h * 2 ^ 16
  | o => x.val field lt.1 lt.2 o 32

/-- A predicate source (R250). -/
def Issue.pred (x : Issue) (field : Nat) (lt : Nat × Thread) (o : Operand) : Bool :=
  match o with
  | .lit v => lt.2.readP x.s (saltOf lt.1 field 0) v.toNat
  | _ => false

/-! ## Destinations -/

/-- An S destination takes the lowest lane's result only (R202). -/
def Issue.dst (x : Issue) (lt : Nat × Thread) : Operand :=
  match x.f.d with
  | .s i => if (x.parts.head?.map (·.1)) = some lt.1 then .s i else .unused
  | d => d

/-- A result of a width for each participant (R198, R200). -/
def Issue.write (x : Issue) (w : Nat) (val : Nat × Thread → Nat) (s : State) : State :=
  s.results x.op x.team.uid (x.parts.map fun lt => (lt.2.tid, operandWrites x.f.d w (val lt)))

/-- A predicate for each participant (R200). -/
def Issue.writePred (x : Issue) (val : Nat × Thread → Bool) (s : State) : State :=
  s.results x.op x.team.uid (x.parts.map fun lt => (lt.2.tid, predWrites x.f.d (val lt)))

/-! ## Waiting -/

/-- A thread that leaves its wave to wait in its instruction (R159). -/
def Issue.block (x : Issue) (tid : Nat) (w : Wait) (s : State) : State :=
  match s.team? x.team.uid with
  | none => s
  | some t =>
    let lane := if x.wave.lanes.length < 2 then none else x.wave.lanes.find? fun (l : Nat × Nat) => l.2 == tid
    let seat := lane.map fun l => (⟨x.wave.wid, x.s.seq, l.1, x.wave.lanes.length⟩ : Seat)
    let marker := if x.f.marker then some (t.unbound x.wave.tids) else none
    (s.leaveWave x.wave.wid [tid]).updThread x.team.uid tid fun th => { th with
      released := false
      blocked := some { wait := w, len := x.len, since := s.seq, cycle := s.now t.die, marker, seat } }

/-- A thread that leaves its wave until a release has taken effect, and then issues its instruction again (R132). -/
def Issue.blockRelease (x : Issue) (tid : Nat) (sc : Scope) (s : State) : State :=
  { x with len := 0, f := { x.f with marker := false } }.block tid (.release sc) s

/-! ## How the wave goes on -/

/-- What an instruction leaves to its wave: to go on; a next program counter for some of its threads; a trap that some of
them raise, with their TRAPINFO, before the instruction performs anything; to issue it again; nothing. -/
inductive Out where
  | go
  | branch (next : List (Nat × DWord))
  | trap (cause : Nat) (infos : List (Nat × Nat))
  | again
  | handled
  deriving DecidableEq, Repr

/-- The different values of a list, in the order in which they first appear. -/
def distinct {α : Type} [DecidableEq α] (l : List α) : List α :=
  match l with
  | [] => []
  | a :: t => a :: (distinct t).filter (· ≠ a)

/-- Parts of a wave, one for each next program counter (R159); ISSUELANE is kept. -/
def State.addParts (s : State) (w : Wave) (groups : List (List (Nat × Nat))) : State :=
  match groups with
  | [] => s
  | g :: rest =>
    State.addParts { s with waves := s.waves ++ [{ w with wid := s.seq, lanes := g, age := s.seq, since := none }], seq := s.seq + 1 } w rest

/-- The wave divides by a key of its threads: the part of the lowest lane stays the wave. All parts become ready in one cycle, and
nothing orders them: that part is the youngest (DESIGN CHOICE: log 90). -/
def State.divide {α : Type} [DecidableEq α] (s : State) (wid : Nat) (key : Nat → α) : State :=
  match s.wave? wid with
  | none => s
  | some w =>
    let groups := (distinct (w.lanes.map fun l => key l.2)).map fun k => w.lanes.filter fun l => key l.2 = k
    match groups with
    | [] => s
    | g :: rest => (s.updWave wid fun w => { w with lanes := g }).addParts w rest

/-- The marker (R206): every result of the threads is written now if all are bound; otherwise the waves park. -/
def State.mark (s : State) (uid : Nat) (tids wids : List Nat) : State :=
  match s.team? uid with
  | none => s
  | some t =>
    match t.unbound tids with
    | [] => s.updTeam uid fun t => t.flushAll s.lastResult tids
    | ops =>
      let park := fun (w : Wave) => { w with park := match w.park with
        | some p => some { p with ops := p.ops ++ ops, mark := true }
        | none => some { pc := 0, ops := ops, mark := true } }
      { s with waves := updWhere (fun w => wids.contains w.wid) park s.waves }

/-- The program counters after an instruction: each thread still in the wave goes to its own next address, or past the
instruction; the wave divides where they differ, is marked, and becomes ready again (R159, R206, R367). -/
def Issue.advance (x : Issue) (next : List (Nat × DWord)) (s : State) : State :=
  match s.wave? x.wave.wid with
  | none => s
  | some w =>
    let fall := x.pc + BitVec.ofNat 64 x.len
    let pcOf := fun (tid : Nat) => ((next.find? fun (n : Nat × DWord) => n.1 == tid).map fun n => n.2).getD fall
    let s := s.updThreads x.team.uid w.tids fun th =>
      { th with pc := pcOf th.tid, released := false, hcount := if th.handler then th.hcount + 1 else th.hcount }
    let before := s.waves.map (·.wid)
    let s := s.divide w.wid pcOf
    let s := if x.f.marker then
        s.mark x.team.uid w.tids (w.wid :: (s.waves.map (·.wid)).filter fun i => !before.contains i) else s
    (s.updWave w.wid fun w => { w with since := none, age := s.seq, issued := w.issued + 1 }).tick

/-- What an instruction's body leaves of its wave. -/
def Issue.goOn (x : Issue) (r : State × Out) : State :=
  match r.2 with
  | .go => x.advance [] r.1
  | .branch next => x.advance next r.1
  | .trap cause infos => r.1.trapWave x.wave.wid x.pc cause infos
  | .again => r.1.updWave x.wave.wid fun w => { w with waiting := true }
  | .handled => r.1

/-- The wave after an instruction's body. A wave that has waited for its instruction to execute, and finds that it can, has become
ready (R367): it issues by its age from now. -/
def Issue.finish (x : Issue) (r : State × Out) : State :=
  if x.wave.waiting && r.2 != .again then
    (x.s.updWave x.wave.wid fun w => { w with waiting := false, age := x.s.seq }).tick
  else x.goOn r

/-! ## Checks 6 and 7 of R213 -/

/-- The V registers that a field's operand occupies: how many (R198). -/
def vregsOf (sp : FSpec) : Nat :=
  match sp with
  | .dst w | .src w | .srcNoLit w => max 1 (w / 32)
  | .quad => 4
  | .vblock => 32
  | _ => 0

/-- Check 7 on one operand: TRAPINFO of R215 where it reaches beyond VREGS. -/
def rangeErr (vregs field : Nat) (sp : FSpec) (o : Operand) : Option Nat :=
  match o with
  | .v i => if vregs < i.toNat + vregsOf sp then some (field * 2 ^ 10 + i.toNat) else none
  | _ => none

/-- The guard slot an engine command names (R208): X21[20:16] is 16 + n, or zero for none. -/
def guardSlotOf (op : Nat) (f : Fields) : Option Nat :=
  if [0xA9, 0xAA, 0xAB, 0xAE, 0xC2, 0xC4, 0xC6].contains op ∧ 2 ^ 20 ≤ f.x21.toNat then some (f.x21.toNat / 2 ^ 16 % 16) else none

/-- Check 7 of R213. -/
def regRangeErr (t : Team) (op : Nat) (f : Fields) : Option Nat :=
  match form op with
  | none => none
  | some fm =>
    let sp := fm.specs f.fn.toNat f.mods (f.c != .unused)
    match rangeErr t.vregs 0 sp.d f.d, rangeErr t.vregs 1 sp.a f.a, rangeErr t.vregs 2 sp.b f.b, rangeErr t.vregs 3 sp.c f.c,
      sp.e.bind (fun e => rangeErr t.vregs 4 e (fieldE f)), guardSlotOf op f with
    | some i, _, _, _, _, _ => some i
    | _, some i, _, _, _, _ => some i
    | _, _, some i, _, _, _ => some i
    | _, _, _, some i, _, _ => some i
    | _, _, _, _, some i, _ => some i
    | _, _, _, _, _, some g => if g < t.guards.length then none else some (2 ^ 62 + g)
    | _, _, _, _, _, none => none

/-- Checks 6 and 7 of R213, alike for every thread of the wave: the cause and TRAPINFO. -/
def State.issueErr (t : Team) (w : Wave) (op : Nat) (f : Fields) : Option (Nat × Nat) :=
  if (op = 0x0E ∨ op = 0x0F) ∧ ((t.active w).any fun l => !l.2.handler) then some (Cause.privilege, 0)
  else (regRangeErr t op f).map fun i => (Cause.regRange, i)

/-! ## Running an instruction of the ISA for the current wave -/

/-- The length of an opcode's word in bytes (R211). -/
def opLength (op : Nat) : Nat := ((form op).map fun fm => 4 * fm.words).getD 8

/-- The instruction that the current wave executes, before the checks. -/
def State.issue? (s : State) (op : Nat) (f : Fields) : Option Issue :=
  (s.wave? s.cur).bind fun w => (s.team? w.uid).bind fun t => (s.grid? t.gid).bind fun g => (s.ctx? g.ctx).bind fun c =>
    match t.active w with
    | [] => none
    | l :: rest => some {
        s, wave := w, team := t, grid := g, ctx := c, pc := l.2.pc, len := opLength op, op, f,
        parts := (l :: rest).filter fun lt => guardHolds f.guard s lt.1 lt.2 }

/-- An instruction of the ISA: its checks, then its body, then how the wave goes on. The machine stops only where no wave
can execute it. -/
def runWave (op : Nat) (f : Fields) (body : Issue → State → State × Out) (s : State) : Host.Outcome State Fault Refusal :=
  match s.issue? op f with
  | none => .fault .noWave
  | some x =>
    match State.issueErr x.team x.wave op f with
    | some (cause, info) => .next (x.finish (s, .trap cause (x.wave.tids.map fun tid => (tid, info))))
    | none => .next (x.finish (body x s))

/-- A body that only changes the state. -/
def plain (f : Issue → State → State) (x : Issue) (s : State) : State × Out := (f x s, .go)

/-- A result of a width for each participant. -/
def computes (w : Nat) (val : Issue → Nat × Thread → Nat) (x : Issue) (s : State) : State × Out := (x.write w (val x) s, .go)

/-- A predicate for each participant. -/
def computesPred (val : Issue → Nat × Thread → Bool) (x : Issue) (s : State) : State × Out := (x.writePred (val x) s, .go)

/-- The participants' TRAPINFO where a check finds one. -/
def Issue.raised (x : Issue) (check : Nat × Thread → Option Nat) : List (Nat × Nat) :=
  x.parts.filterMap fun lt => (check lt).map fun i => (lt.2.tid, i)

/-- A body that traps if a check raises its cause for some participant, and otherwise acts. -/
def unlessRaised (cause : Nat) (check : Issue → Nat × Thread → Option Nat) (body : Issue → State → State × Out)
    (x : Issue) (s : State) : State × Out :=
  match x.raised (check x) with
  | [] => body x s
  | infos => (s, .trap cause infos)

end Sys2Proof.Machine
end

