-- ==== Sys2Proof/Machine/Flags.lean ====
section
/-! DEFINITION. What writes predicates: the conditions of ICMP (R246) and FCMP (R263), the class mask of FCLASS, the operations of
PLOP (R250) and the votes (R256). The machine has no other flags (R181, R244). -/

namespace Sys2Proof.Machine

/-- The condition an FN value names on integers (R212, R246). -/
def icmpCond (fn : Nat) (a b : Int) : Bool :=
  match fn with
  | 0 => decide (a = b)
  | 1 => decide (a ≠ b)
  | 2 => decide (a < b)
  | 3 => decide (a ≤ b)
  | 4 => decide (b < a)
  | _ => decide (b ≤ a)

/-- The condition an FN value names on floating-point values (R212, R263). -/
def fcmpCond (fn : Nat) (a b : FVal) : Bool :=
  let un := a.isNan || b.isNan
  match fn with
  | 0 => !un && a.eq b
  | 1 => un || !a.eq b
  | 2 => !un && a.lt b
  | 3 => !un && (a.lt b || a.eq b)
  | 4 => !un && b.lt a
  | 5 => !un && (b.lt a || a.eq b)
  | 6 => un
  | _ => !un

/-- The bit of FCLASS (R263). A finite value is subnormal where its magnitude lies below the least normal of the format. -/
def fclassBit (ty : Ty) (x : FVal) : Nat :=
  match x with
  | .nan => 8
  | .inf n => if n then 0 else 7
  | .fin n m e =>
    if m = 0 then (if n then 3 else 4)
    else if (FVal.fin false m e).lt (.fin false 1 (1 - ty.fmt.bias)) then (if n then 2 else 5)
    else if n then 1 else 6

/-- PLOP (R250). -/
def plopOp (fn : Nat) (a b : Bool) : Bool :=
  match fn with
  | 0 => a && b
  | 1 => a || b
  | 2 => a != b
  | _ => a && !b

/-- VOTE over the predicates of the participants (R256). -/
def voteOp (fn : Nat) (ps : List Bool) : Bool :=
  match fn with
  | 0 => ps.all id
  | 1 => ps.any id
  | _ => ps.all id || !ps.any id

end Sys2Proof.Machine
end

