-- ==== Sys2Proof/Machine/IntAlu.lean ====
section
/-! DEFINITION. Integer, logic, predicate and integer-conversion instructions (R244 to R253). -/

namespace Sys2Proof.Machine

/-! ## Operations on values -/

/-- An operand as the instruction's type reads it (R237). -/
def Issue.ia (x : Issue) (lt : Nat × Thread) : Int := intValue x.f.mods.ty (x.a lt x.f.mods.ty.regBits)
def Issue.ib (x : Issue) (lt : Nat × Thread) : Int := intValue x.f.mods.ty (x.b lt x.f.mods.ty.regBits)
def Issue.ic (x : Issue) (lt : Nat × Thread) : Int := intValue x.f.mods.ty (x.c lt x.f.mods.ty.regBits)

/-- An exact integer written in a type, clamped or wrapped (R244). -/
def intResult (ty : Ty) (sat : Bool) (i : Int) : Nat :=
  if sat then intBits ty (clamp ty.minInt ty.maxInt i) else intBits ty i

/-- An instruction of R244: an exact integer for each participant. -/
def intOp (val : Issue → Nat × Thread → Int) (x : Issue) (s : State) : State × Out :=
  (x.write x.f.mods.ty.regBits (fun lt => intResult x.f.mods.ty x.f.mods.sat (val x lt)) s, .go)

/-- An instruction of R247 and R248 on bit strings of the type's width. -/
def bitOp (val : Issue → Nat × Thread → Nat → Nat) (x : Issue) (s : State) : State × Out :=
  (x.write x.f.mods.ty.regBits (fun lt => val x lt x.f.mods.ty.bits % 2 ^ x.f.mods.ty.bits) s, .go)

/-- LOP3 on w bits (R247). -/
def lop3 (w t a b c : Nat) : Nat :=
  ((iota 0 w).map fun i => if bit t (4 * (bit a i).toNat + 2 * (bit b i).toNat + (bit c i).toNat) then 2 ^ i else 0).sum

/-- The number of zero bits above the highest one of w (R247). -/
def clzOf (w a : Nat) : Nat := if a = 0 then w else w - 1 - a.log2

/-- Rotation left (R248). -/
def rotl (w a n : Nat) : Nat := a * 2 ^ (n % w) % 2 ^ w + a / 2 ^ (w - n % w)

/-- BFE (R249). -/
def bfeOf (ty : Ty) (a k : Nat) : Nat :=
  let w := ty.bits
  let pos := k % 256
  let len := k / 256 % 256
  if len = 0 ∨ w ≤ pos then 0
  else
    let l := min len (w - pos)
    let v := a / 2 ^ pos % 2 ^ l
    if ty.isSigned then sext l w v else v

/-- BFI (R249). -/
def bfiOf (w a b k : Nat) : Nat :=
  let pos := k % 256
  let len := k / 256 % 256
  if len = 0 ∨ w ≤ pos then a
  else
    let l := min len (w - pos)
    a % 2 ^ pos + b % 2 ^ l * 2 ^ pos + a / 2 ^ (pos + l) * 2 ^ (pos + l)

/-- A byte of PRMT (R253). -/
def prmtByte (a q : Nat) : Nat :=
  let b := bits a (8 * (q % 4)) 8
  if bit q 2 then 0 else if bit q 3 then (if bit b 7 then 255 else 0) else b

def prmtOf (a b : Nat) : Nat := ((iota 0 4).map fun k => prmtByte a (bits b (4 * k) 4) * 2 ^ (8 * k)).sum

/-- The dot product of four bytes (R252). -/
def dot4 (src : Ty) (a b : Nat) : Int :=
  ((iota 0 4).map fun k => intValue src (bits a (8 * k) 8) * intValue src (bits b (8 * k) 8)).sum

/-! ## Arithmetic (R244) -/

def execIadd (f : Fields) (s : State) := runWave 0x20 f (intOp fun x lt => x.ia lt + x.ib lt) s
def execIsub (f : Fields) (s : State) := runWave 0x21 f (intOp fun x lt => x.ia lt - x.ib lt) s
def execImul (f : Fields) (s : State) := runWave 0x22 f (intOp fun x lt => x.ia lt * x.ib lt) s
def execImad (f : Fields) (s : State) := runWave 0x23 f (intOp fun x lt => x.ia lt * x.ib lt + x.ic lt) s
def execImulh (f : Fields) (s : State) :=
  runWave 0x24 f (intOp fun x lt => x.ia lt * x.ib lt / (2 ^ x.f.mods.ty.bits : Nat)) s
def execImin (f : Fields) (s : State) := runWave 0x25 f (intOp fun x lt => min (x.ia lt) (x.ib lt)) s
def execImax (f : Fields) (s : State) := runWave 0x26 f (intOp fun x lt => max (x.ia lt) (x.ib lt)) s
def execIabs (f : Fields) (s : State) := runWave 0x27 f (intOp fun x lt => (x.ia lt).natAbs) s
def execIneg (f : Fields) (s : State) := runWave 0x28 f (intOp fun x lt => -x.ia lt) s
def execIsad (f : Fields) (s : State) :=
  runWave 0x29 f (intOp fun x lt => intValue x.f.mods.ty (x.dOld lt 32) + (x.ia lt - x.ib lt).natAbs) s
def execIadd3 (f : Fields) (s : State) := runWave 0x2A f (intOp fun x lt => x.ia lt + x.ib lt + x.ic lt) s

/-! ## LEA, ICMP, ISEL, MOV, MOVL (R245, R246) -/

def execLea (f : Fields) (s : State) :=
  runWave 0x2B f (computes 64 fun x lt => wrap 64 (x.ia lt * (2 ^ (x.f.x21.toNat % 64) : Nat) + x.b lt 64)) s
def execIcmp (f : Fields) (s : State) :=
  runWave 0x2C f (computesPred fun x lt => icmpCond x.f.fn.toNat (x.ia lt) (x.ib lt)) s

/-- ISEL: D keeps its value where OPB is zero. -/
def iselBody (x : Issue) (s : State) : State × Out :=
  let w := x.f.mods.ty.regBits
  let ws := x.parts.map fun lt => (lt.2.tid, if x.b lt w = 0 then [] else operandWrites x.f.d w (x.a lt w))
  (s.results x.op x.team.uid ws, .go)

def execIsel (f : Fields) (s : State) := runWave 0x2D f iselBody s
def execMov (f : Fields) (s : State) := runWave 0x2E f (bitOp fun x lt w => x.a lt w) s
def execMovl (f : Fields) (s : State) :=
  runWave 0x2F f (bitOp fun x _ w =>
    if w = 64 then sext 53 64 (x.f.x21.toNat * 2 ^ 32 + x.f.l32.toNat) else x.f.l32.toNat) s

/-! ## Logic, shifts and bit fields (R247 to R249) -/

def execAnd (f : Fields) (s : State) := runWave 0x30 f (bitOp fun x lt w => x.a lt w &&& x.b lt w) s
def execOr (f : Fields) (s : State) := runWave 0x31 f (bitOp fun x lt w => x.a lt w ||| x.b lt w) s
def execXor (f : Fields) (s : State) := runWave 0x32 f (bitOp fun x lt w => x.a lt w ^^^ x.b lt w) s
def execNot (f : Fields) (s : State) := runWave 0x33 f (bitOp fun x lt w => 2 ^ w - 1 - x.a lt w) s
def execAndn (f : Fields) (s : State) := runWave 0x34 f (bitOp fun x lt w => x.a lt w &&& (2 ^ w - 1 - x.b lt w)) s
def execLop3 (f : Fields) (s : State) :=
  runWave 0x35 f (bitOp fun x lt w => lop3 w (x.f.x21.toNat % 256) (x.a lt w) (x.b lt w) (x.c lt w)) s
def execShl (f : Fields) (s : State) :=
  runWave 0x36 f (bitOp fun x lt w => if w ≤ x.b lt 32 then 0 else x.a lt w * 2 ^ x.b lt 32) s
def execShr (f : Fields) (s : State) :=
  runWave 0x37 f (bitOp fun x lt w => if w ≤ x.b lt 32 then 0 else x.a lt w / 2 ^ x.b lt 32) s
def execShra (f : Fields) (s : State) :=
  runWave 0x38 f (bitOp fun x lt w => wrap w (signed w (x.a lt w) / (2 ^ min (x.b lt 32) w : Nat))) s
def execRot (f : Fields) (s : State) := runWave 0x39 f (bitOp fun x lt w => rotl w (x.a lt w) (x.b lt 32)) s
def execFunnel (f : Fields) (s : State) :=
  runWave 0x3A f (bitOp fun x lt w => (x.a lt w * 2 ^ w + x.b lt w) / 2 ^ (x.c lt 32 % w)) s
def execBfe (f : Fields) (s : State) :=
  runWave 0x3B f (bitOp fun x lt w => bfeOf x.f.mods.ty (x.a lt w) (x.b lt 32)) s
def execBfi (f : Fields) (s : State) :=
  runWave 0x3C f (bitOp fun x lt w => bfiOf w (x.a lt w) (x.b lt w) (x.c lt 32)) s
def execPopc (f : Fields) (s : State) := runWave 0x3D f (bitOp fun x lt w => popcount w (x.a lt w)) s
def execClz (f : Fields) (s : State) := runWave 0x3E f (bitOp fun x lt w => clzOf w (x.a lt w)) s
def execBrev (f : Fields) (s : State) := runWave 0x3F f (bitOp fun x lt w => reverseBits w (x.a lt w)) s

/-! ## Predicates, conversion, dot product, permutation (R250 to R253) -/

def execPlop (f : Fields) (s : State) :=
  runWave 0x40 f (computesPred fun x lt => plopOp x.f.fn.toNat (x.pred 1 lt x.f.a) (x.pred 2 lt x.f.b)) s
def execPmov (f : Fields) (s : State) := runWave 0x41 f (computesPred fun x lt => x.a lt 32 != 0) s
def execCvti (f : Fields) (s : State) :=
  runWave 0x42 f (intOp fun x lt => intValue x.f.mods.src (x.a lt x.f.mods.src.regBits)) s
def execIdot4 (f : Fields) (s : State) :=
  runWave 0x43 f (intOp fun x lt => x.ic lt + dot4 x.f.mods.src (x.a lt 32) (x.b lt 32)) s
def execPrmt (f : Fields) (s : State) := runWave 0x44 f (computes 32 fun x lt => prmtOf (x.a lt 32) (x.b lt 32)) s

end Sys2Proof.Machine
end

