-- ==== Sys2Proof/Machine/CrossLane.lean ====
section
/-! DEFINITION. Cross-lane instructions (R254 to R257). Lanes are ISSUELANEs; a lane that is no participant is absent. -/

namespace Sys2Proof.Machine

/-- The source lane of SHFL (R255), as an integer. -/
def shflLane (fn lane n : Nat) : Int :=
  match fn with
  | 0 => (n % 32 : Nat)
  | 1 => (lane : Int) - n
  | 2 => (lane : Int) + n
  | _ => (lane ^^^ (n % 32) : Nat)

/-- The participant at a lane. -/
def Issue.at? (x : Issue) (lane : Int) : Option (Nat × Thread) := x.parts.find? fun lt => (lt.1 : Int) = lane

/-- The operation of WREDUCE and WSCAN on two values of a type (R257). -/
def scanOp (fn : Nat) (ty : Ty) (a b : Nat) : Nat :=
  match fn with
  | 0 => (a + b) % 2 ^ ty.bits
  | 1 => if intValue ty a ≤ intValue ty b then a else b
  | 2 => if intValue ty a ≤ intValue ty b then b else a
  | 3 => a &&& b
  | 4 => a ||| b
  | _ => a ^^^ b

/-- The identity of the operation (R257). -/
def scanIdentity (fn : Nat) (ty : Ty) : Nat :=
  match fn with
  | 1 => intBits ty ty.maxInt
  | 2 => intBits ty ty.minInt
  | 3 => 2 ^ ty.bits - 1
  | _ => 0

/-- The operation over OPA of the participants that a test on lanes lets in. -/
def Issue.scan (x : Issue) (keep : Nat → Bool) : Nat :=
  (x.parts.filter fun lt => keep lt.1).foldl (fun acc lt => scanOp x.f.fn.toNat x.f.mods.ty acc (x.a lt x.f.mods.ty.regBits))
    (scanIdentity x.f.fn.toNat x.f.mods.ty)

/-- The sum of 2^lane over the participants that a test lets in. -/
def Issue.laneMask (x : Issue) (keep : Nat × Thread → Bool) : Nat := ((x.parts.filter keep).map fun lt => 2 ^ lt.1).sum

def execShfl (f : Fields) (s : State) :=
  runWave 0x48 f (bitOp fun x lt w =>
    x.a ((x.at? (shflLane x.f.fn.toNat lt.1 (x.b lt 32))).getD lt) w) s

def execVote (f : Fields) (s : State) :=
  runWave 0x49 f (computesPred fun x _ => voteOp x.f.fn.toNat (x.parts.map fun lt => x.pred 1 lt x.f.a)) s

def execBallot (f : Fields) (s : State) :=
  runWave 0x4A f (computes 32 fun x _ => x.laneMask fun lt => x.pred 1 lt x.f.a) s

def execWreduce (f : Fields) (s : State) := runWave 0x4B f (bitOp fun x _ _ => x.scan fun _ => true) s

def execWscan (f : Fields) (s : State) :=
  runWave 0x4C f (bitOp fun x lt _ => x.scan fun l => if x.f.mods.bit then decide (l < lt.1) else decide (l ≤ lt.1)) s

def execMatch (f : Fields) (s : State) :=
  runWave 0x4D f (computes 32 fun x lt =>
    x.laneMask fun o => x.a o x.f.mods.ty.regBits == x.a lt x.f.mods.ty.regBits) s

def execElect (f : Fields) (s : State) :=
  runWave 0x4E f (computesPred fun x lt => x.parts.all fun o => decide (lt.1 ≤ o.1)) s

end Sys2Proof.Machine
end

