-- ==== Sys2Proof/Machine/Float.lean ====
section
/-! DEFINITION. Floating-point instructions and conversions (R259 to R269). -/

namespace Sys2Proof.Machine

/-! ## Arithmetic, selection, comparison (R262, R263) -/

/-- A floating-point source as a value. -/
def Issue.fa (x : Issue) (lt : Nat × Thread) : FVal := .decode x.f.mods.ty (x.fbits 1 lt x.f.a x.f.mods.ty)
def Issue.fb (x : Issue) (lt : Nat × Thread) : FVal := .decode x.f.mods.ty (x.fbits 2 lt x.f.b x.f.mods.ty)
def Issue.fc (x : Issue) (lt : Nat × Thread) : FVal := .decode x.f.mods.ty (x.fbits 3 lt x.f.c x.f.mods.ty)

/-- An exact value, rounded once (R261). -/
def floatOp (val : Issue → Nat × Thread → FVal) (x : Issue) (s : State) : State × Out :=
  (x.write x.f.mods.ty.regBits (fun lt => (val x lt).round x.f.mods.ty x.f.mods.rnd x.f.mods.sat) s, .go)

def execFadd (f : Fields) (s : State) := runWave 0x60 f (floatOp fun x lt => (x.fa lt).add x.f.mods.rnd (x.fb lt)) s
def execFsub (f : Fields) (s : State) := runWave 0x61 f (floatOp fun x lt => (x.fa lt).add x.f.mods.rnd (x.fb lt).neg) s
def execFmul (f : Fields) (s : State) := runWave 0x62 f (floatOp fun x lt => (x.fa lt).mul (x.fb lt)) s
def execFma (f : Fields) (s : State) :=
  runWave 0x63 f (floatOp fun x lt => ((x.fa lt).mul (x.fb lt)).add x.f.mods.rnd (x.fc lt)) s
def execFmin (f : Fields) (s : State) := runWave 0x64 f (floatOp fun x lt => (x.fa lt).minNum (x.fb lt)) s
def execFmax (f : Fields) (s : State) := runWave 0x65 f (floatOp fun x lt => (x.fa lt).maxNum (x.fb lt)) s
def execFcmp (f : Fields) (s : State) :=
  runWave 0x66 f (computesPred fun x lt => fcmpCond x.f.fn.toNat (x.fa lt) (x.fb lt)) s
def execFclass (f : Fields) (s : State) :=
  runWave 0x67 f (computes 32 fun x lt => 2 ^ fclassBit x.f.mods.ty (x.fa lt)) s
/-- FSCALE. DESIGN CHOICE: with .SAT an infinite a gives the greatest finite value, as R261 says of an infinite e; R262 says that the
result is a (log 120). -/
def execFscale (f : Fields) (s : State) :=
  runWave 0x68 f (floatOp fun x lt => (x.fa lt).scale (signed 32 (x.b lt 32))) s

/-- FRND (R262): a zero result keeps the sign of a. A magnitude of 2^60 or more is whole in every format. -/
def frndOf (r : Rnd) (a : FVal) : FVal :=
  match a with
  | .fin n m e => if 60 < e + m.log2 then a else .fin n (roundToInt r n m e).natAbs 0
  | a => a

def execFrnd (f : Fields) (s : State) := runWave 0x69 f (floatOp fun x lt => frndOf x.f.mods.rnd (x.fa lt)) s

/-- FSGN (R263): only the sign bit changes; a NaN operand gives the canonical NaN. -/
def fsgnOf (fn : Nat) (ty : Ty) (a b : Nat) : Nat :=
  let w := ty.bits
  let mag := a % 2 ^ (w - 1)
  let sa := bit a (w - 1)
  let sb := bit b (w - 1)
  if (FVal.decode ty a).isNan || ((fn == 0 || fn == 3) && (FVal.decode ty b).isNan) then nanResult ty
  else
    let sign := match fn with
      | 0 => sb
      | 1 => !sa
      | 2 => false
      | _ => sa != sb
    mag + sign.toNat * 2 ^ (w - 1)

def execFsgn (f : Fields) (s : State) :=
  runWave 0x6A f (fun x s => (x.write x.f.mods.ty.regBits (fun lt =>
    fsgnOf x.f.fn.toNat x.f.mods.ty (x.fbits 1 lt x.f.a x.f.mods.ty) (x.fbits 2 lt x.f.b x.f.mods.ty)) s, .go)) s

/-! ## Packed and dot forms (R264) -/

/-- Element k of a packed value whose elements have a type. -/
def element (ty : Ty) (x k : Nat) : FVal := .decode ty (bits x (k * ty.bits) ty.bits)

/-- A packed form: an exact value for each half. -/
def packedOp (val : Rnd → FVal → FVal → FVal → FVal) (x : Issue) (s : State) : State × Out :=
  let m := x.f.mods
  (x.write 32 (fun lt =>
    let a := x.packed 1 lt x.f.a m.ty
    let b := x.packed 2 lt x.f.b m.ty
    let c := x.packed 3 lt x.f.c m.ty
    let half := fun k => (val m.rnd (element m.ty a k) (element m.ty b k) (element m.ty c k)).round m.ty m.rnd m.sat
    half 0 + half 1 * 2 ^ 16) s, .go)

def execHfma2 (f : Fields) (s : State) := runWave 0x6B f (packedOp fun r a b c => (a.mul b).add r c) s
def execHadd2 (f : Fields) (s : State) := runWave 0x6C f (packedOp fun r a b _ => a.add r b) s
def execHmul2 (f : Fields) (s : State) := runWave 0x6D f (packedOp fun _ a b _ => a.mul b) s

/-- The second type of a dot form (R209). -/
def Src2.ty : Src2 → Ty
  | .f16 => .f16 | .bf16 => .bf16 | .e4m3 => .e4m3 | .e5m2 => .e5m2

/-- The exact sum of products and an addend (R189). An exact zero sum has the sign of the terms where all are zeros of one
sign, and otherwise + but under RD (R182). -/
def sumTerms (r : Rnd) (l : List FVal) : FVal :=
  match FVal.sum r l with
  | .fin _ 0 e => .fin (if l.all (fun t => t.isZero && t.negative) then true
      else if l.all (fun t => t.isZero && !t.negative) then false else r == .rd) 0 e
  | v => v

/-- A dot form of n elements. -/
def dotOp (n : Nat) (x : Issue) (s : State) : State × Out :=
  let m := x.f.mods
  let ty := Src2.ty m.src2
  (x.write 32 (fun lt =>
    let a := x.packed 1 lt x.f.a ty
    let b := x.packed 2 lt x.f.b ty
    let c := FVal.decode .f32 (x.fbits 3 lt x.f.c .f32)
    (sumTerms m.rnd (((iota 0 n).map fun k => (element ty a k).mul (element ty b k)) ++ [c])).round .f32 m.rnd m.sat) s, .go)

def execFdot2 (f : Fields) (s : State) := runWave 0x6E f (dotOp 2) s
def execFdot4 (f : Fields) (s : State) := runWave 0x6F f (dotOp 4) s

/-! ## Conversions (R266 to R269) -/

/-- The rounding mode and saturation that FN carries (R212). -/
def fnRnd (f : Fields) : Rnd := (Rnd.ofCode (f.fn.toNat % 4)).getD .rn
def fnSat (f : Fields) : Bool := decide (4 ≤ f.fn.toNat)

def execCvtf (f : Fields) (s : State) :=
  runWave 0x7A f (fun x s => (x.write x.f.mods.ty.regBits (fun lt =>
    (FVal.decode x.f.mods.src (x.fbits 1 lt x.f.a x.f.mods.src)).round x.f.mods.ty (fnRnd x.f) (fnSat x.f)) s, .go)) s

def execCvtfi (f : Fields) (s : State) :=
  runWave 0x7B f (fun x s => (x.write x.f.mods.ty.regBits (fun lt =>
    intBits x.f.mods.ty ((FVal.decode x.f.mods.src (x.fbits 1 lt x.f.a x.f.mods.src)).toIntTy x.f.mods.ty (fnRnd x.f))) s,
    .go)) s

def execCvtif (f : Fields) (s : State) :=
  runWave 0x7C f (fun x s => (x.write x.f.mods.ty.regBits (fun lt =>
    (FVal.ofInt (intValue x.f.mods.src (x.a lt x.f.mods.src.regBits))).round x.f.mods.ty (fnRnd x.f) (fnSat x.f)) s, .go)) s

/-- The FP32 values that PACK takes from one operand (R268). -/
def packSource (ty : Ty) : Nat × Nat := if ty = .f16 ∨ ty = .bf16 then (1, 32) else if ty = .e2m1 then (4, 128) else (2, 64)

def execPack (f : Fields) (s : State) :=
  runWave 0x7D f (fun x s => (x.write 32 (fun lt =>
    let ty := x.f.mods.ty
    let (n, w) := packSource ty
    let from32 := fun (field : Nat) (o : Operand) =>
      if n = 1 then x.fbits field lt o .f32 else x.val field lt.1 lt.2 o w
    let word := fun k => if k < n then bits (from32 1 x.f.a) (32 * k) 32 else bits (from32 2 x.f.b) (32 * (k - n)) 32
    ((iota 0 (2 * n)).map fun k =>
      (FVal.decode .f32 (word k)).round ty (fnRnd x.f) (fnSat x.f) * 2 ^ (k * ty.bits)).sum) s, .go)) s

def execUnpack (f : Fields) (s : State) :=
  runWave 0x7E f (fun x s =>
    let ty := x.f.mods.src
    let n := if ty = .f16 ∨ ty = .bf16 then 2 else 4
    (x.write (32 * n) (fun lt =>
      let a := x.packed 1 lt x.f.a ty
      let first := if ty = .e2m1 then 4 * (x.b lt 32 % 2) else 0
      ((iota 0 n).map fun k => (element ty a (first + k)).round .f32 .rn false * 2 ^ (32 * k)).sum) s, .go)) s

/-- CVTTD (R269). -/
def cvttdOf (ty : Ty) (r : Rnd) (sat : Bool) (a : FVal) (c : Nat) : Nat :=
  if c = 255 then nanResult ty else (a.scale (127 - (c : Int))).round ty r sat

def execCvttd (f : Fields) (s : State) :=
  runWave 0x7F f (fun x s => (x.write 32 (fun lt =>
    cvttdOf x.f.mods.ty (fnRnd x.f) (fnSat x.f) (.decode .f32 (x.fbits 1 lt x.f.a .f32)) (x.b lt 32 % 256)) s, .go)) s

end Sys2Proof.Machine
end

