-- ==== Sys2Proof/WellFormed.lean ====
section
/-! DEFINITION. Which instructions are well formed: exactly the checks of spec/09_encoding_and_opcode_map.md R213 step 5 on
typed fields, and MOD in the canonical form of its group. -/

namespace Sys2Proof

/-- The operands pass the checks of their fields (R197 to R201). -/
def operandsOk (fm : Form) (f : Fields) : Bool :=
  let sp := fm.specs f.fn.toNat f.mods (f.c != .unused)
  (sp.d.err f.d).isNone && (sp.a.err f.a).isNone && (sp.b.err f.b).isNone && (sp.c.err f.c).isNone && retainOk sp f
    && (match sp.e with
      | none => true
      | some e => match Operand.ofCode (f.x21.toNat % 2 ^ 11) with
        | some o => (e.err o).isNone
        | none => false)

/-- FN, MOD, X21 and L32 pass their checks (R208 to R212), and MOD holds only what its group encodes (R209). -/
def modifiersOk (fm : Form) (f : Fields) : Bool :=
  fm.fnOk f.fn.toNat && (Mods.ofCode fm.group (f.mods.code fm.group) == some f.mods)
    && (match fm.tys with | none => true | some l => (l f.fn.toNat).contains f.mods.ty)
    && (fm.modErr f.fn.toNat f.mods).isNone && (fm.x21Err f.fn.toNat f.mods f.x21.toNat).isNone
    && fm.l32Ok f.l32.toNat

/-- A word has C and X21 only in its third and L32 only in its fourth 32 bits (R195). -/
def lengthOk (fm : Form) (f : Fields) : Bool :=
  match fm.words with
  | 2 => f.c == .unused && f.x21 == 0 && f.l32 == 0
  | 3 => f.l32 == 0
  | 4 => true
  | _ => false

def Fields.wf (op : Nat) (f : Fields) : Bool :=
  match form op with
  | none => false
  | some fm => lengthOk fm f && modifiersOk fm f && operandsOk fm f

/-- TRAPRET is three rows of the opcode table, told apart by FN (R212). -/
def trapretFnOk : Instr → Bool
  | .trapretResume f => f.fn == 0
  | .trapretRetry f => f.fn == 1
  | .trapretSkip f => f.fn == 2
  | _ => true

/-- A well-formed instruction of the ISA. A step of another agent has no word, and nothing to check. -/
def Instr.wf (i : Instr) : Bool :=
  trapretFnOk i && match i.opFields with
    | none => true
    | some (op, f) => f.wf op

end Sys2Proof
end

