-- ==== Sys2Proof/Decode.lean ====
section
/-! DEFINITION. From bits to instructions and back: the decoder of spec/09_encoding_and_opcode_map.md R195 to R214, total
on any word, and the encoder written from the same tables. A word is a number of up to 128 bits, bit 0 the least
significant bit of the first 32-bit word. -/

namespace Sys2Proof

/-- Why a word is no instruction (R213 checks 1 to 5), with the parts of TRAPINFO of R214. -/
structure DecErr where
  detail : Nat
  op : Nat
  field : Nat
  word : Nat
  deriving DecidableEq, Repr

/-- ILLEGAL_OPCODE has DETAIL 0 (R214); every other refusal is ILLEGAL_ENCODING. -/
def DecErr.isOpcode (e : DecErr) : Bool := e.detail == 0

/-- TRAPINFO of a decoding refusal (R214). -/
def DecErr.info (e : DecErr) : Nat :=
  e.detail * 2 ^ 56 + e.op * 2 ^ 48 + e.field * 2 ^ 44 + e.word % 2 ^ 32

/-- The instruction an opcode and its FN select (R211, R212). -/
def build (op : Nat) (f : Fields) : Option Instr :=
  match op with
  | 0x00 => some (.nop f)
  | 0x01 => some (.bra f)
  | 0x02 => some (.brx f)
  | 0x03 => some (.call f)
  | 0x04 => some (.callx f)
  | 0x05 => some (.ret f)
  | 0x06 => some (.exit f)
  | 0x07 => some (.reform f)
  | 0x08 => some (.reconv f)
  | 0x09 => some (.yield f)
  | 0x0A => some (.trap f)
  | 0x0B => if f.fn = 0 then some (.trapretResume f) else if f.fn = 1 then some (.trapretRetry f)
    else if f.fn = 2 then some (.trapretSkip f) else none
  | 0x0C => some (.assert f)
  | 0x0D => some (.pause f)
  | 0x0E => some (.sreg f)
  | 0x0F => some (.swreg f)
  | 0x20 => some (.iadd f)
  | 0x21 => some (.isub f)
  | 0x22 => some (.imul f)
  | 0x23 => some (.imad f)
  | 0x24 => some (.imulh f)
  | 0x25 => some (.imin f)
  | 0x26 => some (.imax f)
  | 0x27 => some (.iabs f)
  | 0x28 => some (.ineg f)
  | 0x29 => some (.isad f)
  | 0x2A => some (.iadd3 f)
  | 0x2B => some (.lea f)
  | 0x2C => some (.icmp f)
  | 0x2D => some (.isel f)
  | 0x2E => some (.mov f)
  | 0x2F => some (.movl f)
  | 0x30 => some (.and f)
  | 0x31 => some (.or f)
  | 0x32 => some (.xor f)
  | 0x33 => some (.not f)
  | 0x34 => some (.andn f)
  | 0x35 => some (.lop3 f)
  | 0x36 => some (.shl f)
  | 0x37 => some (.shr f)
  | 0x38 => some (.shra f)
  | 0x39 => some (.rot f)
  | 0x3A => some (.funnel f)
  | 0x3B => some (.bfe f)
  | 0x3C => some (.bfi f)
  | 0x3D => some (.popc f)
  | 0x3E => some (.clz f)
  | 0x3F => some (.brev f)
  | 0x40 => some (.plop f)
  | 0x41 => some (.pmov f)
  | 0x42 => some (.cvti f)
  | 0x43 => some (.idot4 f)
  | 0x44 => some (.prmt f)
  | 0x48 => some (.shfl f)
  | 0x49 => some (.vote f)
  | 0x4A => some (.ballot f)
  | 0x4B => some (.wreduce f)
  | 0x4C => some (.wscan f)
  | 0x4D => some (.matchOp f)
  | 0x4E => some (.elect f)
  | 0x60 => some (.fadd f)
  | 0x61 => some (.fsub f)
  | 0x62 => some (.fmul f)
  | 0x63 => some (.fma f)
  | 0x64 => some (.fmin f)
  | 0x65 => some (.fmax f)
  | 0x66 => some (.fcmp f)
  | 0x67 => some (.fclass f)
  | 0x68 => some (.fscale f)
  | 0x69 => some (.frnd f)
  | 0x6A => some (.fsgn f)
  | 0x6B => some (.hfma2 f)
  | 0x6C => some (.hadd2 f)
  | 0x6D => some (.hmul2 f)
  | 0x6E => some (.fdot2 f)
  | 0x6F => some (.fdot4 f)
  | 0x70 => some (.rcps f)
  | 0x71 => some (.rsqs f)
  | 0x72 => some (.rcp f)
  | 0x73 => some (.rsq f)
  | 0x74 => some (.sqrt f)
  | 0x75 => some (.exp2 f)
  | 0x76 => some (.log2 f)
  | 0x77 => some (.sinp f)
  | 0x78 => some (.cosp f)
  | 0x79 => some (.tanh f)
  | 0x7A => some (.cvtf f)
  | 0x7B => some (.cvtfi f)
  | 0x7C => some (.cvtif f)
  | 0x7D => some (.pack f)
  | 0x7E => some (.unpack f)
  | 0x7F => some (.cvttd f)
  | 0x80 => some (.ld f)
  | 0x81 => some (.st f)
  | 0x82 => some (.ldacq f)
  | 0x83 => some (.strel f)
  | 0x84 => some (.atom f)
  | 0x85 => some (.atomc f)
  | 0x86 => some (.atomf f)
  | 0x87 => some (.red f)
  | 0x88 => some (.fence f)
  | 0x89 => some (.fencer f)
  | 0x8A => some (.pref f)
  | 0xA0 => some (.pdecl f)
  | 0xA1 => some (.penter f)
  | 0xA2 => some (.pleave f)
  | 0xA3 => some (.pfree f)
  | 0xA4 => some (.pstat f)
  | 0xA6 => some (.lease f)
  | 0xA7 => some (.unlease f)
  | 0xA8 => some (.lstat f)
  | 0xA9 => some (.cpy f)
  | 0xAA => some (.cpy2d f)
  | 0xAB => some (.cpytd f)
  | 0xAC => some (.seal f)
  | 0xAD => some (.waitb f)
  | 0xAE => some (.kvcommit f)
  | 0xB0 => some (.slotinit f)
  | 0xB1 => some (.slotres f)
  | 0xB2 => some (.slottake f)
  | 0xB3 => some (.slotdone f)
  | 0xB4 => some (.slotpeek f)
  | 0xB5 => some (.slotfill f)
  | 0xB8 => some (.gres f)
  | 0xB9 => some (.gclr f)
  | 0xBA => some (.embq f)
  | 0xC0 => some (.tdset f)
  | 0xC1 => some (.tdget f)
  | 0xC2 => some (.mloadw f)
  | 0xC3 => some (.mswap f)
  | 0xC4 => some (.mstream f)
  | 0xC5 => some (.mzero f)
  | 0xC6 => some (.mstore f)
  | 0xC7 => some (.mwait f)
  | 0xC8 => some (.mmask f)
  | 0xC9 => some (.mstat f)
  | 0xCA => some (.mxop f)
  | 0xCB => some (.mresume f)
  | 0xD0 => some (.bar f)
  | 0xD1 => some (.bara f)
  | 0xD2 => some (.barw f)
  | 0xD3 => some (.evset f)
  | 0xD4 => some (.evclr f)
  | 0xD5 => some (.evwait f)
  | 0xD6 => some (.evread f)
  | 0xD7 => some (.taskpost f)
  | 0xD8 => some (.taskend f)
  | 0xD9 => some (.sofput f)
  | 0xDA => some (.sofget f)
  | 0xDB => some (.stloop f)
  | 0xDC => some (.stget f)
  | 0xDD => some (.stadv f)
  | 0xDE => some (.stjmp f)
  | 0xDF => some (.waitl f)
  | 0xE0 => some (.stend f)
  | 0xE1 => some (.stqry f)
  | 0xE2 => some (.launch f)
  | 0xE3 => some (.launchdep f)
  | 0xE4 => some (.join f)
  | 0xE5 => some (.reggrow f)
  | 0xE6 => some (.regshrk f)
  | 0xF0 => some (.wbsend f)
  | 0xF1 => some (.amsg f)
  | 0xF2 => some (.rstore f)
  | 0xF3 => some (.rsig f)
  | 0xF4 => some (.wbchk f)
  | 0xF5 => some (.tmapq f)
  | _ => none

/-- The word of an opcode and its fields (R195), by the length and group that R211 and R209 give the opcode. -/
def encodeWord (op : Nat) (fm : Form) (f : Fields) : Nat :=
  (fm.words - 2) + f.marker.toNat * 2 ^ 2 + op * 2 ^ 3 + f.guard.code * 2 ^ 11 + f.fn.toNat * 2 ^ 15
    + f.d.code * 2 ^ 18 + f.a.code * 2 ^ 29 + f.b.code * 2 ^ 40 + f.retain.code * 2 ^ 51
    + f.mods.code fm.group * 2 ^ 53
    + (if fm.words = 2 then 0 else f.c.code * 2 ^ 64 + f.x21.toNat * 2 ^ 75)
    + (if fm.words = 4 then f.l32.toNat * 2 ^ 96 else 0)

/-- The word of an instruction, and its length in 32-bit words. The steps of the other agents have no word. -/
def encode (i : Instr) : Option (Nat × Nat) :=
  match i.opFields with
  | none => none
  | some (op, f) => (form op).map fun fm => (encodeWord op fm f, fm.words)

/-- Bits h down to l of a word, given as l and the width. -/
def bitsAt (w l n : Nat) : Nat := w / 2 ^ l % 2 ^ n

/-- What the check of an operand field's raw bits answers: a DETAIL of R214, or none where the field passes. -/
def rawOperandErr (sp : FSpec) (raw : Nat) : Option Nat :=
  match Operand.ofCode raw with
  | some o => sp.err o
  | none => some sp.badIndexErr

/-- The checks of MOD (R208, R209): a reserved or unaccepted type first, then reserved codes and bits, then what the opcode
does not accept (log 9). -/
def decodeMods (fm : Form) (fn n : Nat) : Except Nat Mods :=
  match fm.tys.bind (fun l => match Ty.ofCode (n / 64) with
      | none => some fm.noTy
      | some t => if (l fn).contains t then none else some Detail.type) with
  | some e => .error e
  | none =>
    match Mods.ofCode fm.group n with
    | none => .error Detail.reserved
    | some mods =>
      match fm.modErr fn mods with
      | some e => .error e
      | none => .ok mods

/-- The checks of R213 on the fields of a word whose opcode and length are right: the fields, or the DETAIL and FIELD of
the first check that fails, in R213's order GP/GN, FN, MOD, D, A, B, C, X21, L32, RT. -/
def decodeFields (fm : Form) (w : Nat) : Except (Nat × Nat) Fields :=
  let fn := bitsAt w 15 3
  let rd := bitsAt w 18 11
  let ra := bitsAt w 29 11
  let rb := bitsAt w 40 11
  let rc := if fm.words = 2 then 0x600 else bitsAt w 64 11
  let x := if fm.words = 2 then 0 else bitsAt w 75 21
  let l := if fm.words = 4 then bitsAt w 96 32 else 0
  match Guard.ofCode (bitsAt w 11 4) with
  | none => .error (Detail.guard, 2)
  | some guard =>
    if fm.fnOk fn = false then .error (Detail.reserved, 3)
    else match decodeMods fm fn (bitsAt w 53 11) with
      | .error e => .error (e, 4)
      | .ok mods =>
        let sp := fm.specs fn mods (decide (rc ≠ 0x600))
        match rawOperandErr sp.d rd, rawOperandErr sp.a ra, rawOperandErr sp.b rb, rawOperandErr sp.c rc with
        | some e, _, _, _ => .error (e, 5)
        | none, some e, _, _ => .error (e, 6)
        | none, none, some e, _ => .error (e, 7)
        | none, none, none, some e => .error (e, 8)
        | none, none, none, none =>
          match fm.x21Err fn mods x with
          | some e => .error (e, 9)
          | none =>
            match sp.e.bind (fun s => rawOperandErr s (x % 2 ^ 11)) with
            | some e => .error (e, 9)
            | none =>
              if fm.l32Ok l = false then .error (Detail.range, 10)
              else match Operand.ofCode rd, Operand.ofCode ra, Operand.ofCode rb, Operand.ofCode rc with
                | some d, some a, some b, some c =>
                  let f : Fields := {
                    guard, marker := decide (bitsAt w 2 1 = 1), retain := Retain.ofCode (bitsAt w 51 2),
                    fn := BitVec.ofNat 3 fn, mods, d, a, b, c, x21 := BitVec.ofNat 21 x, l32 := BitVec.ofNat 32 l }
                  if retainOk sp f then .ok f else .error (Detail.retain, 11)
                | _, _, _, _ => .error (Detail.kind, 0)

/-- The decoder (R213 checks 2 to 5) on the bits of an instruction that starts at a byte offset of its 32-byte block: the
instruction and its length in bytes, or the refusal of R214. Pad words are passed over before (R196). -/
def decodeAt (off w : Nat) : Except DecErr (Instr × Nat) :=
  let w0 := bitsAt w 0 32
  let len := bitsAt w 0 2
  let op := bitsAt w 3 8
  if len = 3 then .error ⟨Detail.pad, 0, 0, w0⟩
  else if off + 4 * (len + 2) > 32 then .error ⟨Detail.crossing, 0, 0, w0⟩
  else match form op with
    | none => .error ⟨0, op, 0, w0⟩
    | some fm =>
      if fm.words ≠ len + 2 then .error ⟨Detail.length, op, 1, w0⟩
      else match decodeFields fm w with
        | .error (d, fld) => .error ⟨d, op, fld, w0⟩
        | .ok f =>
          match build op f with
          | none => .error ⟨Detail.reserved, op, 3, w0⟩
          | some i => .ok (i, 4 * fm.words)

/-- The host's question: what the decoder reads from a word whose bits are numbered as the opcode table numbers them. -/
def decodeTableWord (_nbits w : Nat) : Option Instr :=
  match decodeAt 0 w with
  | .ok (i, _) => some i
  | .error _ => none

end Sys2Proof
end

