-- ==== Sys2Proof/Machine/Order.lean ====
section
/-! DEFINITION. When a release takes effect (R120, R127 to R129), and what an acquire invalidates (R38, R121). -/

namespace Sys2Proof.Machine

/-- What a release covers: every RC and SO access; every access at a FENCE of .SY; accesses that touch a range (R127, R129). -/
inductive Cover where
  | normal
  | all
  | range (lo hi : Nat)
  deriving DecidableEq, Repr

/-- Whether an access of a page kind at an address is covered. -/
def Cover.hits (c : Cover) (kind : OrdKind) (va size : Nat) : Bool :=
  match c with
  | .normal => kind != .uo
  | .all => true
  | .range lo hi => decide (lo < hi ∧ va < hi ∧ lo < va + size)

/-- A store or atomic on its way: whether it is accepted by its L1 slice (R118), or none for a message of another sort. -/
def MsgKind.accepted (k : MsgKind) : Option Bool :=
  match k with
  | .toL1 .. => some false
  | .write _ early => some early
  | .ack _ early _ _ _ => some early
  | .atomic .. => some false
  | .l1Atomic .. => some false
  | _ => none

/-- Condition 1 of R120: the thread's loads and atomics that a release numbered `since` follows have bound their values. -/
def loadsBound (c : Cover) (since : Nat) (th : Thread) : Bool :=
  th.pend.all fun p => p.parts == 0 || decide (since ≤ p.id) || !p.pages.any fun g => g.left != 0 && c.hits g.kind p.va p.size

/-- Whether a release covers a store or atomic that waits for its own; a range fence leaves local ones alone (R129). -/
def Deferred.hitBy (d : Deferred) (c : Cover) : Bool :=
  match c with
  | .range .. => !d.loc && c.hits d.kind d.va d.size
  | _ => c.hits d.kind d.va d.size

/-- Condition 2: the thread's own stores have performed at the scope. -/
def storesDone (s : State) (c : Cover) (sc : Scope) (uid tid since : Nat) : Bool :=
  (s.msgs.all fun m => match m.what.accepted with
    | none => true
    | some early => !(m.uid == uid && m.tid == tid && decide (m.op < since) && c.hits m.kind m.va m.size)
        || sc == .th || (early && sc != .pk && sc != .sy))
  && s.deferred.all fun d => !(d.uid == uid && d.tid == tid && decide (d.id < since) && d.hitBy c)

/-- Condition 3: at .PK and .SY, the stores that the cluster's L1 slices accepted before are acknowledged. A store's message is
numbered when its slice accepts it. -/
def clusterDone (s : State) (c : Cover) (sc : Scope) (cluster since : Nat) : Bool :=
  (sc != .pk && sc != .sy) || s.msgs.all fun m => match m.what.accepted with
    | some true => !(m.cluster == cluster && decide (m.id < since) && c.hits m.kind m.va m.size)
    | _ => true

/-- Condition 4: at .SY, the core's remote operations are acknowledged, and those that the thread has issued on another core (R134). -/
def remotesDone (s : State) (sc : Scope) (core uid tid since : Nat) : Bool :=
  sc != .sy || s.remotes.all fun r => r.refused.isSome
    || !((r.core == core || (r.uid == uid && r.tid == tid)) && decide (r.id < since))

/-- Whether a release numbered `since` of a thread takes effect at a scope (R120). A range fence leaves remote operations
alone (R129). -/
def State.relOk (s : State) (c : Cover) (sc : Scope) (t : Team) (th : Thread) (since : Nat) : Bool :=
  loadsBound c since th && storesDone s c sc t.uid th.tid since && clusterDone s c sc t.pkCluster since
    && (match c with | .range .. => true | _ => remotesDone s sc t.pkCore t.uid th.tid since)

/-- Participants that release, and whose release has not taken effect, leave the wave to wait for it; the rest go on with the body
(R132). Where they write an S register, which the lowest lane of all of them writes (R202), the wave waits instead. -/
def afterReleaseOf (who : Nat × Thread → Bool) (sc : Scope) (body : Issue → State → State × Out) (x : Issue) (s : State) : State × Out :=
  let since := x.wave.since.getD s.seq
  let held := x.parts.filter fun lt => who lt && !(lt.2.released || s.relOk .normal sc x.team lt.2 since)
  match held, x.f.d with
  | _ :: _, .s _ => ((s.updWave x.wave.wid fun w => { w with since := some since }).tick, .again)
  | _, _ =>
    let s := held.foldl (fun s lt => x.blockRelease lt.2.tid sc s) s.tick
    body { x with parts := x.parts.filter fun lt => !(held.map (·.2.tid)).contains lt.2.tid } s

def afterRelease (sc : Scope) : (Issue → State → State × Out) → Issue → State → State × Out := afterReleaseOf (fun _ => true) sc

/-- The thread's earlier stores to n bytes have performed, so that a read at the home slice finds them (R116). -/
def Issue.ownDone (x : Issue) (s : State) (lt : Nat × Thread) (va n : Nat) : Bool :=
  storesDone s (.range va (va + n)) .pk x.team.uid lt.2.tid s.seq

/-- An instruction that reads memory at the home slice issues again until its participants' stores to what it reads have
performed (R116). -/
def whenReady (ready : Issue → State → Nat × Thread → Bool) (body : Issue → State → State × Out) (x : Issue) (s : State) :
    State × Out :=
  if x.parts.all (ready x s) then body x s else (s, .again)

/-! ## Invalidation -/

/-- Event 2 of R38: a flash invalidation drops a cluster's copies but those held (R50); fills on their way will not be
allocated. It comes before the lookups of its cycle (R290). -/
def State.flash (s : State) (cluster : Nat) : State :=
  { s.takePlace (cluster / 32) [25, cluster] 0 with
    l1 := s.l1.filter fun c => c.cluster != cluster || c.held
    msgs := updWhere (fun m => m.cluster == cluster) (fun m => { m with what := match m.what with
      | .read a _ ov w => .read a false ov w
      | .dram a _ ov w => .dram a false ov w
      | .fill a d _ ov w => .fill a d false ov w
      | k => k }) s.msgs }

/-- Event 3 of R38, and event 4: the copies of some lines. -/
def State.dropLines (s : State) (cluster : Nat) (hit : Nat → Bool) : State :=
  { s with
    l1 := s.l1.filter fun c => c.cluster != cluster || c.held || !hit c.line
    msgs := updWhere (fun m => m.cluster == cluster && hit m.line) (fun m => { m with what := match m.what with
      | .read a _ ov w => .read a false ov w
      | .dram a _ ov w => .dram a false ov w
      | .fill a d _ ov w => .fill a d false ov w
      | k => k }) s.msgs }

/-- An acquire of R132 at a scope, by a team's thread. -/
def State.acquire (s : State) (sc : Scope) (t : Team) : State :=
  if sc = .pk ∨ sc = .sy then s.flash t.pkCluster else s

end Sys2Proof.Machine
end

