-- ==== Sys2Proof/Machine/Translate.lean ====
section
/-! DEFINITION. Translation (R7 to R24), the checks of R274 on one access, and device reads and writes of a context's memory
at the home slices. -/

namespace Sys2Proof.Machine

/-! ## Walks -/

/-- A failed translation: REASON and LEVEL of R24. -/
structure XErr where
  reason : Nat
  level : Nat
  deriving DecidableEq, Repr

/-- Past GDDR 7 (R9). -/
def paLimit : Nat := 2 ^ 39

/-- Checks 1 and 2 of R12 on an entry: the REASON. -/
def entryErr (e : Nat) : Option Nat :=
  if bit e 0 = false then some 1
  else if bits e 48 12 ≠ 0 ∨ bits e 9 7 ≠ 0 ∨ bits e 5 2 = 3 ∨ (bit e 1 = false ∧ bits e 2 7 ≠ 0) then some 4
  else none

/-- The physical address in an entry (R10). -/
def entryPa (e : Nat) : Nat := bits e 16 32 * 2 ^ 16

def leafOf (big : Bool) (e : Nat) : Leaf :=
  { big, pfn := bits e 16 32, rd := bit e 2, wr := bit e 3, ex := bit e 4,
    kind := if bits e 5 2 = 0 then .rc else if bits e 5 2 = 1 then .so else .uo, pk := bit e 7, nl := bit e 8 }

/-- The middle table that the root table points to (R10, R11). -/
def rootEntry (mem : List Host.Cell) (xroot va : Nat) : Except XErr Nat :=
  let root := Memory.num mem (bits xroot 13 35 * 2 ^ 13 + bits va 42 10 * 8) 8
  match entryErr root with
  | some r => .error ⟨r, 0⟩
  | none =>
    if bit root 1 then .error ⟨2, 0⟩
    else if paLimit ≤ entryPa root then .error ⟨5, 0⟩
    else .ok (entryPa root)

/-- The leaf table that a middle table points to, or its leaf of 512 MiB (R10 to R12). DESIGN CHOICE: a leaf with PK = 1 gives
BAD_LEAF also where its PFN[47:40] is not zero, which R14 calls RSVD_BITS (log 84). -/
def middleEntry (mem : List Host.Cell) (table va : Nat) : Except XErr (Nat ⊕ Leaf) :=
  let mid := Memory.num mem (table + bits va 29 13 * 8) 8
  match entryErr mid with
  | some r => .error ⟨r, 1⟩
  | none =>
    if bit mid 1 then
      if bit mid 7 then .error ⟨2, 1⟩
      else if bits mid 16 13 ≠ 0 then .error ⟨3, 1⟩
      else if paLimit ≤ entryPa mid then .error ⟨5, 1⟩
      else .ok (.inr (leafOf true mid))
    else if paLimit ≤ entryPa mid then .error ⟨5, 1⟩
    else .ok (.inl (entryPa mid))

/-- The leaf of 64 KiB that a leaf table holds (R10 to R14). -/
def leafEntry (mem : List Host.Cell) (table va : Nat) : Except XErr Leaf :=
  let leaf := Memory.num mem (table + bits va 16 13 * 8) 8
  match entryErr leaf with
  | some r => .error ⟨r, 2⟩
  | none =>
    if bit leaf 1 = false then .error ⟨2, 2⟩
    else if bit leaf 7 then (if bits leaf 40 8 ≠ 0 then .error ⟨4, 2⟩ else .ok (leafOf false leaf))
    else if paLimit ≤ entryPa leaf then .error ⟨5, 2⟩
    else .ok (leafOf false leaf)

/-- The rest of a walk from a middle table. -/
def walkFrom (mem : List Host.Cell) (table va : Nat) : Except XErr Leaf :=
  match middleEntry mem table va with
  | .error e => .error e
  | .ok (.inr l) => .ok l
  | .ok (.inl t) => leafEntry mem t va

/-- The walk from a root table (R10 to R14). -/
def walk (mem : List Host.Cell) (xroot va : Nat) : Except XErr Leaf :=
  match rootEntry mem xroot va with
  | .error e => .error e
  | .ok t => walkFrom mem t va

def TlbEntry.leaf (e : TlbEntry) : Leaf := ⟨e.big, e.pfn, e.rd, e.wr, e.ex, e.kind, e.pk, e.nl⟩

/-- The page number that a translation covers: VA[51:16], or VA[51:29]. -/
def pageOf (big : Bool) (va : Nat) : Nat := if big then va / 2 ^ 29 else va / 2 ^ 16

/-- The units in which a lookup looks, in order (R15, R16). -/
def tlbLevels : TlbUnit → List TlbUnit
  | .core n => [.core n, .cluster (n / 4), .die (n / 128)]
  | .cluster n => [.cluster n, .die (n / 32)]
  | .die n => [.die n]

def tlbDie : TlbUnit → Nat
  | .core n => n / 128
  | .cluster n => n / 32
  | .die n => n

/-- The translation that one unit holds. -/
def State.cachedAt (s : State) (u : TlbUnit) (ctx va : Nat) : Option Leaf :=
  (s.tlb.find? fun e => e.unit == u && e.ctx == ctx && e.page == pageOf e.big va).map TlbEntry.leaf

/-- The translations of a parcel's pages that are pinned: those of a parcel that was admitted while EVICTING are too (R78, R82). -/
def Parcel.pinnedPages (p : Parcel) : List (Nat × Leaf) :=
  if p.state == .filling || p.state == .resident then p.pages
  else if p.state == .evicting && decide (0 < p.entered) then p.kept else []

/-- The pinned translation of a context's page in a die's TLB: accesses inside a parcel use it, whatever else is cached (R18, R21). -/
def State.pinnedAt (s : State) (die ctx va : Nat) : Option Leaf :=
  let pin := fun (e : TlbEntry) => s.parcels.any fun p =>
    p.ctx == ctx && p.pinnedPages.any fun g => g.1 == va / 2 ^ 16 && g.2.big == e.big
  (s.tlb.find? fun e => e.unit == .die die && e.ctx == ctx && e.page == pageOf e.big va && pin e).map TlbEntry.leaf

/-- The cached translation that an access of a unit finds: a pinned one, or the first in the order of the levels (R15, R18). -/
def State.cached (s : State) (u : TlbUnit) (ctx va : Nat) : Option Leaf :=
  match s.pinnedAt (tlbDie u) ctx va with
  | some l => some l
  | none => (tlbLevels u).findSome? fun v => s.cachedAt v ctx va

/-- The part of an address that names an entry of the walk cache: VA[51:42], or VA[51:29]. -/
def walkIndex (middle : Bool) (va : Nat) : Nat := if middle then va / 2 ^ 29 else va / 2 ^ 42

/-- A table pointer of a die's walk cache. -/
def State.pointer (s : State) (die ctx : Nat) (middle : Bool) (va : Nat) : Option Nat :=
  (s.walks.find? fun e => e.die == die && e.ctx == ctx && e.middle == middle && e.index == walkIndex middle va).map (·.table)

/-- The middle table for an address, from the walk cache or the root table. -/
def State.rootStep (s : State) (die ctx xroot va : Nat) : Except XErr Nat :=
  match s.pointer die ctx false va with
  | some t => .ok t
  | none => rootEntry s.mem xroot va

/-- A walk of a die's walkers, which starts at the lowest pointer that the walk cache holds (R15). -/
def State.walk (s : State) (die ctx xroot va : Nat) : Except XErr Leaf :=
  match s.pointer die ctx true va with
  | some t => leafEntry s.mem t va
  | none => match s.rootStep die ctx xroot va with
    | .error e => .error e
    | .ok t => walkFrom s.mem t va

/-- The pointers that a walk leaves in the walk cache. -/
def State.walked (s : State) (die ctx va : Nat) : List WalkEntry :=
  match s.ctx? ctx, s.pointer die ctx true va with
  | some c, none => match s.rootStep die ctx c.xroot.toNat va with
    | .error _ => []
    | .ok t =>
      (if (s.pointer die ctx false va).isSome then [] else [⟨die, ctx, false, walkIndex false va, t⟩])
        ++ match middleEntry s.mem t va with
          | .ok (.inl u) => [⟨die, ctx, true, walkIndex true va, u⟩]
          | _ => []
  | _, _ => []

/-- The translation of one byte's page, from the caches of a unit or by a walk. -/
def State.xlate (s : State) (u : TlbUnit) (ctx va : Nat) : Except XErr Leaf :=
  if 2 ^ 52 ≤ va then .error ⟨0, 3⟩
  else match s.ctx? ctx with
    | none => .error ⟨6, 3⟩
    | some c =>
      if bit c.xroot.toNat 0 = false then .error ⟨6, 3⟩
      else match s.cached u ctx va with
        | some l => .ok l
        | none => s.walk (tlbDie u) ctx c.xroot.toNat va

/-- A translation enters the caches of the levels that missed (R15); a walk leaves its pointers. -/
def State.fill (s : State) (u : TlbUnit) (ctx va : Nat) (l : Leaf) : State :=
  { s with
    walks := s.walks ++ (if (s.cached u ctx va).isSome then [] else s.walked (tlbDie u) ctx va)
    tlb := s.tlb ++ ((tlbLevels u).takeWhile fun v => (s.cachedAt v ctx va).isNone).map fun v =>
      (⟨v, ctx, l.big, pageOf l.big va, l.pfn, l.rd, l.wr, l.ex, l.kind, l.pk, l.nl⟩ : TlbEntry) }

/-- The address that the model gives a byte: its physical address, or for polder p and offset o, 2^48 + p * 2^28 + o (R14). -/
def Leaf.addr (l : Leaf) (va : Nat) : Nat :=
  if l.pk then 2 ^ 48 + bits l.pfn 12 12 * 2 ^ 28 + bits l.pfn 0 12 * 2 ^ 16 + va % 2 ^ 16
  else if l.big then l.pfn * 2 ^ 16 + va % 2 ^ 29
  else l.pfn * 2 ^ 16 + va % 2 ^ 16

def Leaf.level (l : Leaf) : Nat := if l.big then 1 else 2

/-- An L1-eligible page (R36). -/
def Leaf.eligible (l : Leaf) : Bool := !l.pk && l.kind != .so && !l.nl

/-! ## Kinds of access and TRAPINFO (R13, R24) -/

inductive Access where
  | read | write | fetch | atomic
  deriving DecidableEq, Repr

def Access.code : Access → Nat
  | .read => 0 | .write => 1 | .fetch => 2 | .atomic => 3

/-- TRAPINFO of R24. -/
def xinfo (reason : Nat) (a : Access) (level addr : Nat) : Nat :=
  reason * 2 ^ 60 + a.code * 2 ^ 58 + level * 2 ^ 56 + addr % 2 ^ 52

/-- The permission that a leaf lacks: the REASON (R13). -/
def Leaf.denied (l : Leaf) (a : Access) : Option Nat :=
  match a with
  | .read => if l.rd then none else some 8
  | .write => if l.wr then none else some 9
  | .fetch => if l.ex then none else some 10
  | .atomic => if !l.wr then some 9 else if !l.rd then some 8 else none

/-- The parts of an access by page: address and count (R115). -/
def pageParts (va n : Nat) : List (Nat × Nat) :=
  let rec go (fuel va n : Nat) : List (Nat × Nat) :=
    match fuel with
    | 0 => []
    | fuel + 1 =>
      let first := min n (2 ^ 16 - va % 2 ^ 16)
      if n = 0 then [] else (va, first) :: go fuel (va + first) (n - first)
  go (n / 2 ^ 16 + 2) va n

/-- A translated part of an access: its virtual address, count and leaf. -/
structure Part where
  va : Nat
  count : Nat
  leaf : Leaf
  deriving DecidableEq, Repr

def Part.addr (p : Part) : Nat := p.leaf.addr p.va

/-- XLATE of an access (R23, R273): its translated parts, or TRAPINFO. -/
def State.translate (s : State) (u : TlbUnit) (ctx va n : Nat) (a : Access) : Except Nat (List Part) :=
  if 2 ^ 52 < va + n ∨ 2 ^ 52 ≤ va then .error (xinfo 0 a 3 va)
  else
    let rec go (l : List (Nat × Nat)) : Except Nat (List Part) :=
      match l with
      | [] => .ok []
      | (v, k) :: rest =>
        match s.xlate u ctx v with
        | .error e => .error (xinfo e.reason a e.level v)
        | .ok leaf =>
          match go rest with
          | .error i => .error i
          | .ok ps => .ok (⟨v, k, leaf⟩ :: ps)
    go (pageParts va n)

/-- PERMISSION of a translated access: TRAPINFO (R13). -/
def permissionErr (ps : List Part) (a : Access) : Option Nat :=
  match ps with
  | [] => none
  | p :: rest => match p.leaf.denied a with
    | some r => some (xinfo r a p.leaf.level p.va)
    | none => permissionErr rest a

/-- Whether a page carries a read-only mark (R68). -/
def State.marked (s : State) (ctx va : Nat) : Bool :=
  s.parcels.any fun p => p.ctx == ctx && p.ro && (p.state == .filling || p.state == .resident)
    && p.extents.any fun x => decide (x.1 * 128 / 2 ^ 16 ≤ va / 2 ^ 16 ∧ va / 2 ^ 16 ≤ (x.1 + x.2 - 1) * 128 / 2 ^ 16)

/-- PARCEL_VIOLATION of a write: TRAPINFO (R68). -/
def State.violation (s : State) (ctx : Nat) (ps : List Part) (a : Access) : Option Nat :=
  match ps with
  | [] => none
  | p :: rest => if s.marked ctx p.va then some (xinfo 9 a p.leaf.level p.va) else s.violation ctx rest a

/-- EMBARGO of an access of a thread: TRAPINFO of R106, for the lowest entry hit. -/
def State.embargoErr (s : State) (cluster tag : Nat) (loc : Bool) (lo n : Nat) (writes : Bool) : Option Nat :=
  let hits := s.embargoes.filter fun e => e.cluster == cluster && e.loc == loc && e.tag == tag && (writes || e.wr)
    && decide (e.lo ≤ lo + n - 1 ∧ lo ≤ e.hi)
  (minBy (·.entry) hits).map fun e =>
    e.entry * 2 ^ 58 + e.wr.toNat * 2 ^ 57 + e.loc.toNat * 2 ^ 56 + max lo e.lo % 2 ^ 52

/-- Fills the TLB with the parts of an access. -/
def State.fillParts (s : State) (u : TlbUnit) (ctx : Nat) (ps : List Part) : State :=
  ps.foldl (fun s p => s.fill u ctx p.va p.leaf) s

/-! ## Polders (R14, R90) -/

/-- Whether a byte's model address belongs to a polder, and to a live lease of a context that covers it. -/
def isPolder (addr : Nat) : Bool := decide (2 ^ 48 ≤ addr)

/-- The home slice and set of a line of a polder (R84). -/
def polderHome (p j : Nat) : Nat × Nat := ((j + 89 * p) % 256, (j / 256 + 23 * p) % 512)

/-- Whether a byte of a polder is served for a context: a live lease covers it, or the home slice has not applied the end of one
(R90). -/
def State.leased (s : State) (ctx addr : Nat) : Bool :=
  (s.polders.any fun p => p.id == bits addr 28 12 && p.ctx == ctx && decide (addr % 2 ^ 28 < p.lines * 128))
  || s.ending.any fun e => e.id == bits addr 28 12 && e.ctx == ctx && decide (addr % 2 ^ 28 < e.lines * 128)
    && !e.applied.contains (polderHome e.id (addr % 2 ^ 28 / 128)).1

/-- The lowest byte of a range that the home slice refuses (R14). -/
def State.refusal (s : State) (ctx addr n : Nat) : Option Nat :=
  if isPolder addr then
    (if !s.leased ctx addr then some addr
     else (iota addr n).find? fun a => !s.leased ctx a)
  else none

/-- POLDER_EXPIRED of the parts of an access: TRAPINFO, which names the lowest refused byte (R24, R276). -/
def State.refusedPart (s : State) (ctx : Nat) (a : Access) (ps : List Part) : Option Nat :=
  ps.findSome? fun p => (s.refusal ctx p.addr p.count).map fun b => xinfo 7 a 2 (p.va + (b - p.addr))

/-! ## Poison (R380) -/

def State.poisoned (s : State) (addr n : Nat) : Bool :=
  s.poison.any fun k => decide (k * 32 < addr + n ∧ addr < (k + 1) * 32)

/-- Bytes performed at their home slices; a write of a whole sector clears its poison. -/
def State.perform (s : State) (bs : List Host.Cell) : State :=
  { s with mem := Memory.write s.mem bs,
           mapCache := s.mapCache.filter fun m => bs.all fun b => !m.addrs.contains b.1,
           poison := s.poison.filter fun k => !((iota (k * 32) 32).all fun a => (lastWrite bs a).isSome) }

/-! ## Reads and writes by engines, the host and the device, at the home slices -/

/-- A context's bytes as the home slices hold them; the error is TRAPINFO. -/
def State.readVa (s : State) (u : TlbUnit) (ctx va n : Nat) : Except Nat (List Byte) :=
  match s.translate u ctx va n .read with
  | .error i => .error i
  | .ok ps => match permissionErr ps .read with
    | some i => .error i
    | none => match s.refusedPart ctx .read ps with
      | some i => .error i
      | none => .ok (ps.flatMap fun p => Memory.bytes s.mem p.addr p.count)

/-- The writes of bytes at a context's address, at home slices; the error is TRAPINFO. -/
def State.writeCells (s : State) (u : TlbUnit) (ctx va : Nat) (bs : List Byte) (a : Access) : Except Nat (List Host.Cell) :=
  match s.translate u ctx va bs.length a with
  | .error i => .error i
  | .ok ps => match permissionErr ps a with
    | some i => .error i
    | none => match s.refusedPart ctx a ps with
      | some i => .error i
      | none => .ok (ps.flatMap fun p => cellsAt p.addr ((bs.drop (p.va - va)).take p.count))

/-- A device write of a context's memory, dropped where it faults. -/
def State.writeVa (s : State) (u : TlbUnit) (ctx va : Nat) (bs : List Byte) : State :=
  match s.writeCells u ctx va bs .write with
  | .ok cells => s.perform cells
  | .error _ => s

end Sys2Proof.Machine
end

