-- ==== Sys2Proof/Machine/Cache.lean ====
section
/-! DEFINITION. L1 copies, messages to and from home slices, held lines (R31 to R52), and what a home slice does. -/

namespace Sys2Proof.Machine

/-! ## Lines and sectors (R3, R31, R32) -/

def lineOf (addr : Nat) : Nat := addr / 128
def sectorOf (addr : Nat) : Nat := addr / 32 % 4

/-- The home slice of a physical line (R31), and its set there (R32). -/
def homeSlice (line : Nat) : Nat :=
  bits line 0 8 ^^^ bits line 8 8 ^^^ bits line 16 8 ^^^ bits line 24 8
def homeSet (line : Nat) : Nat := bits line 8 9 ^^^ bits line 17 9

/-- The controller that reads and writes a line in GDDR 7, numbered 4 * die + controller: S[1:0] of the home slice's die (R33). -/
def dramController (line : Nat) : Nat := homeSlice line / 64 * 4 + homeSlice line % 4

/-- The L1 slice of a cluster that may hold a line, and the set there (R34). -/
def l1Slice (line : Nat) : Nat := bits line 0 2 ^^^ bits line 2 2 ^^^ bits line 4 2 ^^^ bits line 6 2
def l1Set (line : Nat) : Nat := bits line 8 5 ^^^ bits line 13 5

/-- A line of a polder, by the model's address. -/
def isPolderLine (line : Nat) : Bool := decide (2 ^ 41 ≤ line)

/-- The home slice and set of a line by the model's address. -/
def lineHome (line : Nat) : Nat × Nat :=
  if isPolderLine line then polderHome (bits line 21 12) (line % 2 ^ 21) else (homeSlice line, homeSet line)

/-- The pieces of an access that lie in one sector each: a misaligned one is atomic only byte by byte (R114). -/
def accessPieces (addr n : Nat) (aligned : Bool) : List (Nat × Nat) :=
  if aligned then [(addr, n)] else (iota addr n).map fun a => (a, 1)

/-! ## L1 copies -/

def State.copy? (s : State) (cluster line : Nat) : Option L1Copy :=
  s.l1.find? fun c => c.cluster == cluster && c.line == line

def L1Copy.has (c : L1Copy) (addr : Nat) : Bool := c.valid.getLsbD (sectorOf addr)

/-- Bytes of a copy. -/
def L1Copy.bytes (c : L1Copy) (addr n : Nat) : List Byte := toBytes n (c.data.toNat / 256 ^ (addr % 128))

/-- Data with a byte put in. -/
def putByte (w : Nat) (d : BitVec w) (k : Nat) (b : Byte) : BitVec w :=
  BitVec.ofNat w (d.toNat - bits d.toNat (8 * k) 8 * 256 ^ k + b.toNat * 256 ^ k)

/-- Data of a line or a sector that starts at an address, with writes laid over it. -/
def overlayData (w base : Nat) (d : BitVec w) (ov : List Host.Cell) : BitVec w :=
  ov.foldl (fun d c => if base ≤ c.1 ∧ c.1 < base + w / 8 then putByte w d (c.1 - base) c.2 else d) d

/-- A store updates a present copy, in its valid sectors (R36). -/
def L1Copy.update (c : L1Copy) (bs : List Host.Cell) : L1Copy :=
  { c with data := overlayData 1024 (c.line * 128) c.data (bs.filter fun b => c.has b.1) }

/-- The copy is the one used last (R35). -/
def State.useCopy (s : State) (cluster line : Nat) : State :=
  { s with l1 := (s.l1.filter fun c => !(c.cluster == cluster && c.line == line))
      ++ s.l1.filter fun c => c.cluster == cluster && c.line == line }

/-- The ways of a slice of a cluster that are granted as local memory (R27, R35): granule 128 * slice + way. -/
def State.localWays (s : State) (cluster slice : Nat) : List Nat :=
  ((s.teams.filter fun t => t.status == .resident && t.pkCluster == cluster).flatMap (·.granules)).filterMap fun g =>
    if g / 128 = slice then some (g % 128) else none

/-- The bytes of stores that the cluster's slice has accepted for a line and that are not acknowledged (R37). -/
def State.unacked (s : State) (cluster line : Nat) : List Host.Cell :=
  (s.msgs.filter fun m => m.cluster == cluster && m.line == line).flatMap fun m => match m.what with
    | .write bs _ => bs
    | .ack bs _ _ _ _ => bs
    | _ => []

/-- A kind of message that brings a copy, with bytes of later stores added to those that the copy keeps (R37). -/
def MsgKind.keep (k : MsgKind) (bs : List Host.Cell) : MsgKind :=
  match k with
  | .read a al ov w => .read a al (ov ++ bs) w
  | .dram a al ov w => .dram a al (ov ++ bs) w
  | .fill a d al ov w => .fill a d al (ov ++ bs) w
  | .grantReq ov => .grantReq (ov ++ bs)
  | .grant d ov => .grant d (ov ++ bs)
  | k => k

/-- A slice updates its copy of a line, and remembers the bytes for copies on their way (R36, R37). -/
def State.acceptBytes (s : State) (cluster line : Nat) (bs : List Host.Cell) : State :=
  let l1 := updWhere (fun (c : L1Copy) => c.cluster == cluster && c.line == line) (·.update bs) s.l1
  let msgs := updWhere (fun (m : Msg) => m.cluster == cluster && m.line == line)
    (fun m => { m with what := m.what.keep bs }) s.msgs
  { s with l1 := l1, msgs := msgs }

/-! ## Sending -/

/-- What a message carries for its thread's access. -/
structure Sender where
  uid : Nat
  tid : Nat
  cluster : Nat
  ctx : Nat
  op : Nat
  kind : OrdKind
  va : Nat
  size : Nat
  instr : Nat
  deriving DecidableEq, Repr

def State.send (s : State) (d : Sender) (line : Nat) (k : MsgKind) : State :=
  { s with
    msgs := s.msgs ++ [{ id := s.seq, cluster := d.cluster, line, uid := d.uid, tid := d.tid, op := d.op, ctx := d.ctx, instr := d.instr,
                         kind := d.kind, va := d.va, size := d.size, what := k }],
    seq := s.seq + 1 }

/-- Cells line by line, each line's in order. -/
def byLine (cells : List Host.Cell) : List (Nat × List Host.Cell) :=
  (distinct (cells.map fun c => lineOf c.1)).map fun line => (line, cells.filter fun c => lineOf c.1 = line)

/-- An L1 slice accepts a store, and sends it to the home slice (R36, R37). `early`: it performs at cluster scope on acceptance
(R118). -/
def State.acceptStore (s : State) (d : Sender) (line : Nat) (bs : List Host.Cell) (early : Bool) : State :=
  ((s.acceptBytes d.cluster line bs).useCopy d.cluster line).send d line (.write bs early)

/-- A store leaves its core, one message a line: for its L1 slice, or, to a polder's line, for the home slice (R36). -/
def State.store (s : State) (d : Sender) (polder early : Bool) (cells : List Host.Cell) : State :=
  (byLine cells).foldl (fun s l => s.send d l.1 (if polder then .write l.2 early else .toL1 l.2 early)) s

/-- Adds a waiter to a read of its context on its way that will be allocated, if there is one. -/
def addWaiter (ms : List Msg) (cluster ctx line sector : Nat) (w : Waiter) : Option (List Msg) :=
  match ms with
  | [] => none
  | m :: rest =>
    let here := m.cluster == cluster && m.line == line && m.ctx == ctx
    match here, m.what with
    | true, .read a true ov ws => if a = sector then some ({ m with what := .read a true ov (ws ++ [w]) } :: rest)
        else (addWaiter rest cluster ctx line sector w).map (m :: ·)
    | true, .dram a true ov ws => if a = sector then some ({ m with what := .dram a true ov (ws ++ [w]) } :: rest)
        else (addWaiter rest cluster ctx line sector w).map (m :: ·)
    | true, .fill a dd true ov ws => if a = sector then some ({ m with what := .fill a dd true ov (ws ++ [w]) } :: rest)
        else (addWaiter rest cluster ctx line sector w).map (m :: ·)
    | _, _ => (addWaiter rest cluster ctx line sector w).map (m :: ·)

/-- A load that misses L1: it joins a read of its sector that will be allocated, or sends one (R36 to R38). -/
def State.missRead (s : State) (d : Sender) (w : Waiter) : State :=
  let line := lineOf w.addr
  let w := { w with overlay := s.unacked d.cluster line }
  match addWaiter s.msgs d.cluster d.ctx line (sectorOf w.addr) w with
  | some ms => { s with msgs := ms }
  | none => s.send d line (.read (sectorOf w.addr) true w.overlay [w])

/-- A read at the home slice (R36): the cluster's copy of the line is invalidated as it passes. -/
def State.homeRead (s : State) (d : Sender) (w : Waiter) : State :=
  (s.dropLines d.cluster (· = lineOf w.addr)).send d (lineOf w.addr) (.read (sectorOf w.addr) false [] [w])

/-! ## Binding results -/

/-- A loaded value as its type extends it (R272). -/
def extendLoad (ty : Ty) (v : Nat) : Nat := if ty = .i8 then sext 8 32 v else if ty = .i16 then sext 16 32 v else v

/-- Bytes of a result have arrived. -/
def PendPage.take (g : PendPage) (first n : Nat) : PendPage :=
  if g.first ≤ first ∧ first < g.first + g.size then { g with left := g.left - n } else g

/-- A result with one more part: with the last, it is bound. -/
def Pend.take (p : Pend) (first : Nat) (bs : List Byte) : Pend :=
  let acc := p.acc + ofBytes bs * 256 ^ first
  let p := { p with pages := p.pages.map fun (g : PendPage) => g.take first bs.length }
  if p.parts ≤ 1 then { p with parts := 0, acc, writes := operandWrites p.dst p.ty.regBits (extendLoad p.ty acc) }
  else { p with parts := p.parts - 1, acc }

/-- Results but those that a home slice has refused, once all their parts are answered: nothing is written (R276). -/
def answered (ps : List Pend) : List Pend := ps.filter fun p => !(p.refused && p.parts == 0)

def State.bind (s : State) (uid tid pend first : Nat) (bs : List Byte) : State :=
  s.updThread uid tid fun th => { th with pend := answered (updWhere (·.id == pend) (·.take first bs) th.pend) }

/-- A part of a result is refused. -/
def State.refusePart (s : State) (uid tid pend : Nat) : State :=
  let refuse := fun (p : Pend) => { p with refused := true, parts := p.parts - 1 }
  s.updThread uid tid fun th => { th with pend := answered (updWhere (·.id == pend) refuse th.pend) }

/-- A thread's refusals by home slices, of which the lowest byte counts (R276). -/
def addRefusal (l : List (Nat × Nat)) (tid info : Nat) : List (Nat × Nat) :=
  match l with
  | [] => [(tid, info)]
  | x :: rest => if x.1 = tid then (tid, min x.2 info) :: rest else x :: addRefusal rest tid info

/-- A refusal by a home slice is noted for the wave that waits for it (R276). -/
def State.noteRefusal (s : State) (uid tid info : Nat) : State :=
  let note := fun (w : Wave) => { w with park := w.park.map fun p => { p with refused := addRefusal p.refused tid info } }
  { s with waves := updWhere (fun w => w.uid == uid && w.tids.contains tid) note s.waves }

/-! ## Atomics (R281 to R283) -/

/-- The value that an atomic writes, from the old one; none where it writes nothing. Operations are the opcode and X21's code;
a matrix, courier or fabric addition uses ATOM's. -/
def AtomicOp.new (a : AtomicOp) (old : Nat) : Option Nat :=
  let w := a.ty.bits
  let f := FVal.decode a.ty
  match a.op, a.code with
  | 0x85, _ => if old = a.b % 2 ^ w then some (a.c % 2 ^ w) else none
  | 0x86, 0 => some (((f old).add .rn (f a.b)).round a.ty .rn false)
  | 0x86, 1 => some (((f old).minNum (f a.b)).round a.ty .rn false)
  | 0x86, _ => some (((f old).maxNum (f a.b)).round a.ty .rn false)
  | _, 0 => some ((old + a.b) % 2 ^ w)
  | _, 1 => some (if intValue a.ty old ≤ intValue a.ty a.b then old else a.b % 2 ^ w)
  | _, 2 => some (if intValue a.ty old ≤ intValue a.ty a.b then a.b % 2 ^ w else old)
  | _, 3 => some (old &&& a.b % 2 ^ w)
  | _, 4 => some (old ||| a.b % 2 ^ w)
  | _, 5 => some (old ^^^ a.b % 2 ^ w)
  | _, 6 => some (a.b % 2 ^ w)
  | _, 7 => some (if a.b % 2 ^ w ≤ old then 0 else old + 1)
  | _, _ => some (if old = 0 ∨ a.b % 2 ^ w < old then a.b % 2 ^ w else old - 1)

/-- The bytes of an atomic. -/
def AtomicOp.size (a : AtomicOp) : Nat := a.ty.bits / 8

/-- The bytes that an atomic writes. -/
def AtomicOp.cells (a : AtomicOp) (old : Nat) : List Host.Cell :=
  match a.new old with
  | some v => cellsAt a.addr (toBytes a.size v)
  | none => []

/-- The unit of R377 that holds the first poisoned sector at a virtual address or after it: L2, or GDDR 7. -/
def State.poisonUnit (s : State) (ctx va : Nat) : Nat :=
  match s.translate (.die 0) ctx va 1 .read with
  | .ok (p :: _) =>
    match minBy id (s.poison.filter fun k => decide (p.addr < (k + 1) * 32)) with
    | some k => if isPolder p.addr || s.l2.any fun l => l.line == k / 4 && l.valid.getLsbD (k % 4) then 4 else 5
    | none => 5
  | _ => 5

/-- A context is killed by an uncorrectable error in what it read (R380). -/
def State.killPoisoned (s : State) (ctx va : Nat) : State :=
  s.kill ctx ⟨2, Cause.uncorrectable, false, none, s.poisonUnit ctx va * 2 ^ 60 + va % 2 ^ 52⟩

/-- An atomic on a held copy (R50): its old value is bound, and its write goes through; in a sector that the grant brought poisoned
it kills its context (R380). -/
def State.heldAtomic (s : State) (d : Sender) (a : AtomicOp) (pend : Option Nat) : State :=
  match s.copy? d.cluster (lineOf a.addr) with
  | none => s
  | some c =>
    if !c.has a.addr then s.killPoisoned d.ctx d.va
    else
      let old := c.bytes a.addr a.size
      let s := match pend with
        | some p => s.bind d.uid d.tid p 0 old
        | none => s
      match a.cells (ofBytes old) with
      | [] => s
      | cells => s.acceptStore d (lineOf a.addr) cells true

/-- The virtual address of the lowest byte of a message's access that lies in its line: what a refusal of the line reports
(R24, R90). -/
def Msg.firstVa (m : Msg) : Nat :=
  let d := (m.line * 128 + 2 ^ 16 - m.va % 2 ^ 16) % 2 ^ 16
  if d < m.size then m.va + d else m.va

def Msg.sender (m : Msg) : Sender := ⟨m.uid, m.tid, m.cluster, m.ctx, m.op, m.kind, m.va, m.size, m.instr⟩

/-- Whether a cluster may use its held copy of a line: no recall has reached it. -/
def State.holds (s : State) (cluster line : Nat) : Bool := (s.copy? cluster line).any (·.held)

/-- A cluster asks for a line, unless it has already (R50). -/
def State.askGrant (s : State) (d : Sender) (line : Nat) : State :=
  if s.msgs.any fun m => m.cluster == d.cluster && m.line == line && match m.what with
      | .grantReq _ => true
      | .grant _ _ => true
      | _ => false
  then s
  else s.send d line (.grantReq (s.unacked d.cluster line))

/-- An atomic of the cluster on a line is on its way to the home slice. -/
def State.atomicAway (s : State) (cluster line : Nat) : Bool :=
  s.msgs.any fun m => m.cluster == cluster && m.line == line && match m.what with
    | .atomic .. => true
    | _ => false

/-- An atomic at the L1 slice (R49): on the held copy, or queued until the line is granted. It is performed after the cluster's
earlier atomics that go to the home slice (R280). -/
def State.l1Atomic (s : State) (d : Sender) (a : AtomicOp) (pend : Option Nat) : State :=
  let line := lineOf a.addr
  if s.holds d.cluster line && !s.atomicAway d.cluster line then s.heldAtomic d a pend
  else (s.send d line (.l1Atomic a pend)).askGrant d line

/-- The atomics queued for a line are performed on the copy that the grant brought, in their order. -/
def State.runQueued (s : State) (ms : List Msg) : State :=
  match ms with
  | [] => s
  | m :: rest =>
    match m.what with
    | .l1Atomic a p =>
      State.runQueued (({ s with msgs := s.msgs.filter (·.id != m.id) }).heldAtomic m.sender a p) rest
    | _ => State.runQueued s rest

/-- A cluster gives up a held line: its copy is invalidated as the release notice leaves (R51). A notice on its way answers a
recall that comes later (R52). -/
def State.giveUp (s : State) (cluster line : Nat) : State :=
  ({ s with l1 := s.l1.filter fun c => !(c.cluster == cluster && c.line == line) }).send
    ⟨0, 0, cluster, 0, 0, .rc, 0, 0, 0⟩ line .release

/-- A slice drops copies; it gives up lines that it holds (R35, R50). -/
def State.dropCopies (s : State) (cs : List L1Copy) : State :=
  match cs with
  | [] => s
  | c :: rest => State.dropCopies (if c.held then s.giveUp c.cluster c.line
      else { s with l1 := s.l1.filter fun x => !(x.cluster == c.cluster && x.line == c.line) }) rest

/-- The way that a line's copy takes in its set: a free one, or that of a victim, any copy but the one used last (log 83). -/
def State.l1Way (s : State) (cluster line : Nat) : State × Nat :=
  let set := s.l1.filter fun c => c.cluster == cluster && l1Slice c.line == l1Slice line && l1Set c.line == l1Set line
  let loc := s.localWays cluster (l1Slice line)
  match (iota 0 128).filter fun w => !loc.contains w && !set.any (·.way == w) with
  | w :: ws => (s, (w :: ws).getD (s.choose [15, cluster, line] (ws.length + 1)) w)
  | [] =>
    match set.getD (s.choose [15, cluster, line] (max 1 (set.length - 1))) ⟨0, 0, 0, 0, 0, false⟩ with
    | v => (s.dropCopies [v], v.way)

/-- The sectors of a line that are not poisoned. -/
def State.soundSectors (s : State) (line : Nat) : BitVec 4 :=
  BitVec.ofNat 4 (((iota 0 4).map fun k => if s.poison.contains (4 * line + k) then 0 else 2 ^ k).sum)

/-- A grant reaches its cluster, whose slice allocates the line, but for its poisoned sectors (R50, R380). -/
def State.takeGrant (s : State) (m : Msg) (d : BitVec 1024) (ov : List Host.Cell) : State :=
  let s := { s with msgs := s.msgs.filter (·.id != m.id)
                    l1 := s.l1.filter fun (c : L1Copy) => !(c.cluster == m.cluster && c.line == m.line) }
  let r := s.l1Way m.cluster m.line
  let copy : L1Copy := ⟨m.cluster, m.line, r.2, overlayData 1024 (m.line * 128) d ov, r.1.soundSectors m.line, true⟩
  let s := { r.1 with l1 := r.1.l1 ++ [copy] }
  s.runQueued (s.msgs.filter fun x => x.cluster == m.cluster && x.line == m.line)

/-! ## At the home slice -/

/-- The direction of a message: to the home slice, or back. Messages of one cluster for one line keep their order both ways
(log 13). -/
def MsgKind.up : MsgKind → Bool
  | .read .. | .dram .. | .write .. | .atomic .. | .grantReq .. | .release => true
  | _ => false

def MsgKind.down : MsgKind → Bool
  | .fill .. | .ack .. | .grant .. | .recall => true
  | _ => false

/-- Whether a message is the first of its direction for its cluster and line. -/
def State.first (s : State) (m : Msg) : Bool :=
  match s.msgs.find? fun x => x.cluster == m.cluster && x.line == m.line && x.arrived == 0
    && x.what.up == m.what.up && x.what.down == m.what.down with
  | some x => x.id == m.id
  | none => false

def State.msg? (s : State) (id : Nat) : Option Msg := s.msgs.find? (·.id == id)

def State.setMsg (s : State) (id : Nat) (k : MsgKind) : State :=
  { s with msgs := updWhere (·.id == id) (fun m => { m with what := k, arrived := 0 }) s.msgs }

def State.dropMsg (s : State) (id : Nat) : State := { s with msgs := s.msgs.filter (·.id != id) }

/-- A store of the same instruction to some of a store's bytes has not been accepted yet: the lower lanes' come first (R280). -/
def State.acceptsLater (s : State) (m : Msg) (bs : List Host.Cell) : Bool :=
  s.msgs.any fun x => x.uid == m.uid && x.instr == m.instr && decide (x.id < m.id) && match x.what with
    | .toL1 cs _ => cs.any fun c => bs.any fun b => b.1 == c.1
    | _ => false

/-- An L1 slice accepts a store, or serves a load (R36, R118); a load whose copy has gone meanwhile misses. -/
def State.acceptMsg (s : State) (id : Nat) : State :=
  match s.msg? id with
  | none => s
  | some m => match m.what with
    | .toL1 bs early => if s.acceptsLater m bs then s else (s.dropMsg id).acceptStore m.sender m.line bs early
    | .lookup w =>
      match s.copy? m.cluster m.line with
      | some c =>
        if c.has w.addr then
          ((s.dropMsg id).useCopy m.cluster m.line).bind w.uid w.tid w.pend w.first (c.bytes w.addr w.count)
        else (s.dropMsg id).missRead m.sender w
      | none => (s.dropMsg id).missRead m.sender w
    | _ => s

/-- Physical lines of a parcel, from its extents and translations of its pages. -/
def Parcel.linesBy (p : Parcel) (pages : List (Nat × Leaf)) : List Nat :=
  distinct (p.extents.flatMap fun x => (iota x.1 x.2).filterMap fun v =>
    (pages.find? (·.1 = v / 512)).map fun g => g.2.addr (v * 128) / 128)

def Parcel.lines (p : Parcel) : List Nat := p.linesBy p.pages

/-- Virtual lines of a parcel. -/
def Parcel.vlines (p : Parcel) : List Nat := distinct (p.extents.flatMap fun x => iota x.1 x.2)

def Parcel.pinned (p : Parcel) : Bool := p.state == .filling || p.state == .resident

/-- The physical lines that hold pinned ways (R69): those of polders and of parcels that have filled, an evicting parcel's until its
eviction is complete. A filling parcel takes its ways as its fill ends (log 83). -/
def State.pinnedLines (s : State) : List Nat :=
  distinct ((s.parcels.filter fun p => p.state == .resident || p.state == .evicting).flatMap Parcel.lines
    ++ s.polders.flatMap fun p => iota (2 ^ 41 + p.id * 2 ^ 21) p.lines)

/-- Whether every way of an absent line's set is pinned: a demand access is then served by bypass (R47). -/
def State.bypassed (s : State) (line : Nat) : Bool :=
  s.pinBudget == 16 && !(s.l2.any (·.line == line))
    && decide (16 ≤ (s.pinnedLines.filter fun l => lineHome l = lineHome line).length)

/-- A demand access that is served by bypass is counted (R47, R48). -/
def State.countBypass (s : State) (line : Nat) : State :=
  if s.bypassed line then
    let k := (lineHome line).1
    let n := Sparse.get 0 s.pinbyp k
    { s with pinbyp := Sparse.put 0 s.pinbyp k (if n % 2 ^ 31 = 2 ^ 31 - 1 then 2 ^ 32 - 1 else n + 1) }
  else s

/-! ## Ways of L2 (R44, R45, R47) -/

def State.holder? (s : State) (line : Nat) : Option Nat := (s.holders.find? (·.1 == line)).map (·.2)

/-- A recall of the line is in progress: requests are held in arrival order (R51). -/
def State.recalling (s : State) (line : Nat) : Bool :=
  s.msgs.any fun m => m.line == line && (m.arrived != 0 || match m.what with
    | .recall => true
    | .release => true
    | _ => false)

/-- The sectors of a mask of bytes that are whole. -/
def wholeSectors (bytes : BitVec 128) : BitVec 4 :=
  BitVec.ofNat 4 (((iota 0 4).map fun k => if bits bytes.toNat (32 * k) 32 = 2 ^ 32 - 1 then 2 ^ k else 0).sum)

/-- The bytes of a line that an access touches, as a mask, and their sectors. -/
def byteMask (line : Nat) (addrs : List Nat) : BitVec 128 :=
  (addrs.filter fun a => lineOf a = line).foldl (fun m a => m ||| BitVec.ofNat 128 (2 ^ (a % 128))) 0
def sectorMask (bytes : BitVec 128) : BitVec 4 :=
  BitVec.ofNat 4 (((iota 0 4).map fun k => if bits bytes.toNat (32 * k) 32 = 0 then 0 else 2 ^ k).sum)

/-- Sectors of a line have come from GDDR 7, and bytes of it are written: a sector is valid once all of it is there (R44). -/
def L2Line.mark (l : L2Line) (filled : BitVec 4) (written : BitVec 128) : L2Line :=
  let bytes := l.bytes ||| written
  let valid := l.valid ||| filled ||| wholeSectors bytes
  { l with valid, dirty := l.dirty ||| sectorMask written
           bytes := BitVec.ofNat 128 (((iota 0 4).map fun k => if valid.getLsbD k then 0 else bits bytes.toNat (32 * k) 32 * 2 ^ (32 * k)).sum) }

/-- A line that is present is used (R45). -/
def State.markL2 (s : State) (line : Nat) (filled : BitVec 4) (written : BitVec 128) : State :=
  { s with l2 := (s.l2.filter (·.line != line)) ++ (s.l2.filter (·.line == line)).map (·.mark filled written) }

/-- A write that the home slice performs on a line, but for its allocation: the message becomes the answer. -/
def State.performWrite (s : State) (m : Msg) (bs : List Host.Cell) (early : Bool) : State :=
  match bs.findSome? fun b => s.refusal m.ctx b.1 1 with
  | some _ => s.setMsg m.id (.ack bs early none Access.write.code (some m.firstVa))
  | none => (((s.perform bs).markL2 m.line 0 (byteMask m.line (bs.map (·.1)))).setMsg m.id (.ack bs early none 0 none))

/-- A recall at once, for an agent that is no core, or for a replacement: the holder's granted atomics and its write-throughs are
performed, and the hold ends (R51; log 19). -/
def State.endHold (s : State) (line : Nat) : State :=
  match s.holder? line with
  | none => s
  | some h =>
    let s := match s.msgs.find? fun m => m.cluster == h && m.line == line && match m.what with
        | .grant _ _ => true
        | _ => false with
      | some m => match m.what with
        | .grant d ov => s.takeGrant m d ov
        | _ => s
      | none => s
    let ws := s.msgs.filter fun m => m.cluster == h && m.line == line && match m.what with
      | .write .. => true
      | .recall => true
      | .release => true
      | _ => false
    let s := ws.foldl (fun s m => match m.what with
      | .write bs early => s.performWrite m bs early
      | _ => s.dropMsg m.id) s
    { s with
      l1 := s.l1.filter fun c => !(c.cluster == h && c.line == line)
      holders := s.holders.filter (·.1 != line) }

/-! ## What the home slice performs -/

/-- The home slice performs a read: the sector leaves for the cluster; a refusal answers in its place (R14); a poisoned sector
kills the context that reads it, at the lowest byte of the read that lies in it (R377, R380). -/
def State.performRead (s : State) (m : Msg) (sector : Nat) (alloc : Bool) (ov : List Host.Cell) (ws : List Waiter) : State :=
  let base := m.line * 128 + 32 * sector
  match ws.findSome? fun w => s.refusal m.ctx w.addr w.count with
  | some _ => s.setMsg m.id (.ack [] false ((ws.head?).map (·.pend)) Access.read.code (some m.firstVa))
  | none =>
    if s.poisoned base 32 then
      match ws with
      | [] => s.dropMsg m.id
      | w :: _ => (s.dropMsg m.id).killPoisoned m.ctx w.va
    else s.setMsg m.id (.fill sector (BitVec.ofNat 256 (Memory.num s.mem base 32)) alloc ov ws)

/-- The home slice performs a request. `use` brings a line that the request misses into its set. -/
def State.performBy (use : State → Nat → BitVec 4 → BitVec 128 → State) (s : State) (m : Msg) : State :=
  match m.what with
  | .read sector alloc ov ws =>
    -- a prefetch that finds every way of its set pinned is dropped, and not counted (R288)
    if ws.isEmpty && s.bypassed m.line then s.dropMsg m.id
    else
      -- a read at the home slice invalidates the cluster's copy (event 4 of R38)
      let s := if alloc then s else s.dropLines m.cluster (· = m.line)
      let s := s.countBypass m.line
      if isPolderLine m.line || s.l2.any fun l => l.line == m.line && l.valid.getLsbD sector then
        (use s m.line 0 0).performRead m sector alloc ov ws
      else s.setMsg m.id (.dram sector alloc ov ws)
  | .write bs early => (use (s.countBypass m.line) m.line 0 0).performWrite m bs early
  | .atomic a pend =>
    let s := (s.dropLines m.cluster (· = m.line)).countBypass m.line
    match s.refusal m.ctx a.addr a.size with
    | some _ => s.setMsg m.id (.ack [] false pend Access.atomic.code (some m.firstVa))
    | none =>
      if s.poisoned a.addr a.size then (s.dropMsg m.id).killPoisoned m.ctx m.va
      else
        let old := Memory.num s.mem a.addr a.size
        let cells := a.cells old
        let mask := byteMask m.line (iota a.addr a.size)
        let s := use s m.line (sectorMask mask) (byteMask m.line (cells.map (·.1)))
        (s.perform cells).setMsg m.id (.ack cells false pend old none)
  | .grantReq ov =>
    let s := use (s.countBypass m.line) m.line 15 0
    ({ s with holders := s.holders ++ [(m.line, m.cluster)] }).setMsg m.id
      (.grant (BitVec.ofNat 1024 (Memory.num s.mem (m.line * 128) 128)) ov)
  | _ => s

/-- Whether a request has to wait for a recall of the line (R51): its holder, and who asks. -/
def MsgKind.recalls (k : MsgKind) (cluster holder : Nat) : Bool :=
  match k with
  | .write .. => cluster != holder
  | .atomic .. => true
  | .grantReq .. => cluster != holder
  | _ => false

/-- The requests held for a line are all performed in arrival order, each with the recall that it needs at once. -/
def State.finishHeld (use : State → Nat → BitVec 4 → BitVec 128 → State) (s : State) (line : Nat) (ms : List Msg) : State :=
  match ms with
  | [] => s.endHold line
  | m :: rest =>
    let s := match s.holder? line with
      | some h => if m.what.recalls m.cluster h then s.endHold line else s
      | none => s
    State.finishHeld use (s.performBy use { m with arrived := 0 }) line rest

/-- The whole recall of a line at once: requests that arrived before it are performed first, and no cluster holds the line then
(R51; log 19). -/
def State.recallNow (use : State → Nat → BitVec 4 → BitVec 128 → State) (s : State) (line : Nat) : State :=
  (s.endHold line).finishHeld use line (sortBy (·.arrived) (s.msgs.filter fun x => x.line == line && x.arrived != 0))

/-! ## Room in L2 (R44, R45, R47) -/

/-- A line that is present is used. -/
def State.touchL2 (s : State) (line : Nat) (filled : BitVec 4) (written : BitVec 128) : State :=
  if s.l2.any (·.line == line) then s.markL2 line filled written else s

/-- Room for one more line in its set (R45, R47): a full set replaces an unpinned line, any but the one used last unless a pin
asks for it or no other is left (log 83). A line that is held or under recall is recalled first (R51). A demand access that takes
the last unpinned way does so after the pins of its cycle. -/
def State.makeRoom (s : State) (line : Nat) (pin : Bool) : State :=
  let set := s.l2.filter fun l => lineHome l.line = lineHome line
  if set.length < 16 then s
  else
    let pinned := s.pinnedLines
    let old := set.filter fun l => !pinned.contains l.line
    let n := if pin then old.length else old.length - 1
    match old[s.choose [16, line] (max 1 n)]? with
    | none => s
    | some v =>
      let s := s.recallNow State.touchL2 v.line
      let s := if !pin && n = 0 then s.noteAct ((lineHome line).1 / 64) [21] 1 else s
      { s with l2 := s.l2.filter (·.line != v.line) }

/-- A demand access uses a line: sectors that came from GDDR 7, and bytes that it writes; a bypass allocates nothing (R44, R47), and
a polder's lines are there while it is leased (R87). -/
def State.useL2 (s : State) (line : Nat) (filled : BitVec 4) (written : BitVec 128) : State :=
  if s.l2.any (·.line == line) then s.markL2 line filled written
  else if isPolderLine line || s.bypassed line then s
  else
    let s := s.makeRoom line false
    { s with l2 := s.l2 ++ [L2Line.mark ⟨line, 0, 0, 0⟩ filled written] }

/-- A pin takes a way for a line (R47); a held line is recalled first (R52). -/
def State.pinL2 (s : State) (line : Nat) : State :=
  if s.l2.any (·.line == line) then s
  else
    let s := s.makeRoom line true
    { s with l2 := s.l2 ++ [⟨line, 0, 0, 0⟩] }

def State.performMsg (s : State) (m : Msg) : State := s.performBy State.useL2 m

/-- The whole recall of a line at once, for a write of an engine, the host, a handler or a remote device (R51; log 19). -/
def State.forceRecall (s : State) (line : Nat) : State := s.recallNow State.useL2 line

/-- A demand read by an agent that is no core, or of a fetch: the lines of a range are used, and bypasses are counted. -/
def State.demandLines (s : State) (addr n : Nat) (lines : List Nat) : State :=
  match lines with
  | [] => s
  | l :: rest =>
    State.demandLines ((s.countBypass l).useL2 l (sectorMask (byteMask l (iota addr n))) 0) addr n rest

def State.demandRead (s : State) (addr n : Nat) : State :=
  if n = 0 then s else s.demandLines addr n (iota (lineOf addr) (lineOf (addr + n - 1) - lineOf addr + 1))

/-- The demand reads of a read of a context's memory that has passed its checks. -/
def State.demandVa (s : State) (u : TlbUnit) (ctx va n : Nat) : State :=
  match s.translate u ctx va n .read with
  | .ok ps => ps.foldl (fun s p => s.demandRead p.addr p.count) s
  | .error _ => s

/-- Sends the recall, once. -/
def State.recallLine (s : State) (line holder : Nat) : State :=
  if s.msgs.any fun m => m.line == line && match m.what with
      | .recall => true
      | .release => true
      | _ => false
  then s
  else s.send ⟨0, 0, holder, 0, 0, .rc, 0, 0, 0⟩ line .recall

/-- The requests of one access to one line of a polder, which is served whole or refused whole (R90; DEDUCED: log
126). -/
def State.sameAccess (s : State) (m : Msg) : List Msg :=
  s.msgs.filter fun x => x.cluster == m.cluster && x.line == m.line && x.op == m.op && x.what.up && decide (m.id ≤ x.id)

/-- A request arrives at its home slice: it is performed, or held while the line is recalled; the holder's write-throughs are
never held (R51). -/
def State.arrive (s : State) (m : Msg) : State :=
  let hold := fun (s : State) =>
    { s with msgs := updWhere (·.id == m.id) (fun m => { m with arrived := s.seq }) s.msgs, seq := s.seq + 1 }
  if isPolderLine m.line then (s.sameAccess m).foldl State.performMsg s
  else match s.holder? m.line with
  | none => if s.recalling m.line then hold s else s.performMsg m
  | some h =>
    let own := m.cluster == h && match m.what with
      | .write .. => true
      | _ => false
    if own then s.performMsg m
    else if s.recalling m.line then hold s
    else if m.what.recalls m.cluster h then (hold s).recallLine m.line h
    else s.performMsg m

/-- The requests held for a line are performed in arrival order, until a grant makes one of them wait again (R51). -/
def State.performHeld (s : State) (line : Nat) (ms : List Msg) : State :=
  match ms with
  | [] => s
  | m :: rest =>
    match s.holder? line with
    | some h =>
      if m.what.recalls m.cluster h then s.recallLine line h
      else State.performHeld (s.performMsg { m with arrived := 0 }) line rest
    | none => State.performHeld (s.performMsg { m with arrived := 0 }) line rest

/-- A release notice arrives (R51); it answers a recall that is still on its way (R52). -/
def State.released (s : State) (m : Msg) : State :=
  let s := { s.dropMsg m.id with
    holders := s.holders.filter (· != (m.line, m.cluster))
    msgs := s.msgs.filter fun x => !(x.id == m.id || (x.line == m.line && x.cluster == m.cluster && x.what == MsgKind.recall)) }
  s.performHeld m.line (sortBy (·.arrived) (s.msgs.filter fun x => x.line == m.line && x.arrived != 0))

/-- The home slice of each line takes part of a write by an agent that is no core (R44, R47, R51). -/
def State.homeLine (s : State) (cells : List Host.Cell) (line : Nat) : State :=
  ((s.forceRecall line).countBypass line).useL2 line 0 (byteMask line (cells.map (·.1)))

/-- A write at the home slices by an agent that is no core (R51). -/
def State.homeWrite (s : State) (cells : List Host.Cell) : State :=
  ((distinct (cells.map fun c => lineOf c.1)).foldl (fun s l => s.homeLine cells l) s).perform cells

end Sys2Proof.Machine
end

