-- ==== Sys2Proof/Machine/Fetch.lean ====
section
/-! DEFINITION. Fetching an instruction (R23, R40, R196): translation, the instruction cache, pad words, the decoder. -/

namespace Sys2Proof.Machine

/-- What the read of a fetch block answers: a trap with its TRAPINFO, a poisoned sector, or the block with the state after. -/
inductive BlockRead where
  | trap (cause info : Nat)
  | poisoned
  | ok (data : BitVec 256) (s : State)

/-- A core's copy of a block. -/
def State.cachedBlock (s : State) (core addr : Nat) : Option (BitVec 256) :=
  (s.icache.find? fun b => b.core == core && b.addr == addr).map (·.data)

/-- The cache takes a block from a home slice (R40); 64 KiB hold 2,048. -/
def State.cacheBlock (s : State) (core addr : Nat) (data : BitVec 256) : State :=
  let mine := s.icache.filter (·.core == core)
  let rest := match mine.head? with
    | some b => if 2048 ≤ mine.length then s.icache.erase b else s.icache
    | none => s.icache
  { s with icache := rest ++ [(⟨core, addr, data⟩ : IBlock)], fetches := s.fetches ++ [addr] }

/-- The 32-byte block of an address, as a core fetches it for a context. -/
def State.fetchBlock (s : State) (ctx core pc : Nat) : BlockRead :=
  match s.translate (.core core) ctx pc 4 .fetch with
  | .error i => .trap Cause.xlate i
  | .ok [] => .trap Cause.xlate (xinfo 0 .fetch 3 pc)
  | .ok (p :: ps) =>
    match permissionErr (p :: ps) .fetch with
    | some i => .trap Cause.permission i
    | none =>
      let addr := p.addr / 32 * 32
      let s := s.fill (.core core) ctx pc p.leaf
      if (s.refusal ctx addr 32).isSome then .trap Cause.polderExpired (xinfo 7 .fetch p.leaf.level pc)
      else match s.cachedBlock core addr with
      | some d => .ok d s
      | none =>
        if s.poisoned addr 32 then .poisoned
        else
          let d := BitVec.ofNat 256 (Memory.num s.mem addr 32)
          .ok d (s.cacheBlock core addr d)

/-- The bits of a block from a byte offset on. -/
def blockFrom (d : BitVec 256) (off : Nat) : Nat := d.toNat / 256 ^ off

/-- What fetch finds at an address: an instruction, a trap, a poisoned sector; or nothing but pad words so far, and the address
after them. -/
inductive Fetched where
  | instr (pc : DWord) (i : Instr) (s : State)
  | trap (pc : DWord) (cause info : Nat) (s : State)
  | poisoned (pc : DWord)
  | pads (pc : DWord) (s : State)

/-- Pad words are passed over, as many as `fuel`; then the word is decoded. -/
def State.fetch (s : State) (ctx core : Nat) (fuel : Nat) (pc : DWord) : Fetched :=
  match fuel with
  | 0 => .pads pc s
  | fuel + 1 =>
    match s.fetchBlock ctx core pc.toNat with
    | .trap c i => .trap pc c i s
    | .poisoned => .poisoned pc
    | .ok d s =>
      let off := pc.toNat % 32
      let w := blockFrom d off
      if w % 2 ^ 32 = 3 then s.fetch ctx core fuel (pc + 4)
      else match decodeAt off w with
        | .ok (i, _) => .instr pc i s
        | .error e => .trap pc (if e.isOpcode then Cause.illegalOpcode else Cause.illegalEncoding) e.info s

/-- The first word at an address; none where it cannot be fetched. -/
def State.wordAt (s : State) (ctx core pc : Nat) : Option Nat :=
  match s.fetchBlock ctx core pc with
  | .ok d _ => some (blockFrom d (pc % 32) % 2 ^ 32)
  | _ => none

/-- The length of an instruction from its first word (R242): 4 for a pad word. -/
def wordLength (w : Nat) : Nat := if w % 4 = 3 then 4 else 4 * (w % 4 + 2)

end Sys2Proof.Machine
end

