-- ==== Sys2Proof/Machine/Reed.lean ====
section
/-! DEFINITION. Reed cores: a handler of RV64IM code run as one step (R135, R398). The instructions are those of the RISC-V
standard that R398 names (log 23). -/

namespace Sys2Proof.Machine

/-- Where the model puts the payload and the scratch area, and the code (log 23). -/
def Reed.payloadAt : Nat := 2 ^ 60
def Reed.scratchAt : Nat := 2 ^ 60 + 4096

/-- A handler in execution: registers written so far, program counter (an offset in the code), bytes of the line and of the
scratch area written so far, addresses of the line that it has loaded. -/
structure Reed where
  regs : List (Nat × Nat)
  pc : Nat
  line : List Host.Cell
  scratch : List Host.Cell
  loads : List Nat
  deriving DecidableEq, Repr

/-- What a handler works on: its code, the line's address and bytes, the payload, and the other registers at the start. -/
structure ReedEnv where
  code : List Byte
  base : Nat
  data : List Byte
  payload : List Byte
  init : Nat → Nat

/-- How a handler ends: with ECALL; OVERRUN, EXCEPTION (R344). -/
inductive ReedEnd where
  | done (r : Reed)
  | abort (reason : Nat)

def Reed.get (e : ReedEnv) (r : Reed) (i : Nat) : Nat :=
  if i = 0 then 0
  else match r.regs.find? fun x => x.1 == i with
    | some x => x.2
    | none => e.init i % 2 ^ 64

def Reed.set (r : Reed) (i v : Nat) : Reed := if i = 0 then r else { r with regs := (i, v % 2 ^ 64) :: r.regs }

/-- A byte that a load sees: of the line, the payload or the scratch area; zero elsewhere. -/
def Reed.byte (e : ReedEnv) (r : Reed) (a : Nat) : Byte :=
  if e.base ≤ a ∧ a < e.base + 128 then (lastWrite r.line a).getD (e.data.getD (a - e.base) 0)
  else if Reed.payloadAt ≤ a ∧ a < Reed.payloadAt + 32 then e.payload.getD (a - Reed.payloadAt) 0
  else if Reed.scratchAt ≤ a ∧ a < Reed.scratchAt + 256 then (lastWrite r.scratch a).getD 0
  else 0

def Reed.load (e : ReedEnv) (r : Reed) (a n : Nat) : Nat := ofBytes ((iota 0 n).map fun k => r.byte e ((a + k) % 2 ^ 64))

/-- A store: bytes of the line and of the scratch area; discarded elsewhere. -/
def Reed.store (e : ReedEnv) (r : Reed) (a n v : Nat) : Reed :=
  let cells := ((iota 0 n).zip (toBytes n v)).map fun k => ((a + k.1) % 2 ^ 64, k.2)
  { r with
    line := r.line ++ cells.filter fun c => decide (e.base ≤ c.1 ∧ c.1 < e.base + 128)
    scratch := r.scratch ++ cells.filter fun c => decide (Reed.scratchAt ≤ c.1 ∧ c.1 < Reed.scratchAt + 256) }

/-- OP and OP-IMM of RV64I. -/
def rvAlu (f3 : Nat) (alt : Bool) (a b : Nat) : Nat :=
  match f3 with
  | 0 => if alt then wrap 64 ((a : Int) - b) else (a + b) % 2 ^ 64
  | 1 => a * 2 ^ (b % 64) % 2 ^ 64
  | 2 => if signed 64 a < signed 64 b then 1 else 0
  | 3 => if a < b then 1 else 0
  | 4 => a ^^^ b
  | 5 => if alt then wrap 64 (signed 64 a / (2 ^ (b % 64) : Nat)) else a / 2 ^ (b % 64)
  | 6 => a ||| b
  | _ => a &&& b

/-- Their 32-bit forms; none for a code that has none. -/
def rvAlu32 (f3 : Nat) (alt : Bool) (a b : Nat) : Option Nat :=
  let x : Nat := a % 2 ^ 32
  match f3 with
  | 0 => some (sext 32 64 (if alt then wrap 32 ((x : Int) - b) else (x + b) % 2 ^ 32))
  | 1 => some (sext 32 64 (x * 2 ^ (b % 32)))
  | 5 => some (sext 32 64 (if alt then wrap 32 (signed 32 x / (2 ^ (b % 32) : Nat)) else x / 2 ^ (b % 32)))
  | _ => none

/-- The M extension at a width: division by zero and overflow as the standard gives them. -/
def rvMul (w f3 a b : Nat) : Nat :=
  let sa := signed w a
  let sb := signed w b
  match f3 with
  | 0 => wrap w (sa * sb)
  | 1 => wrap w (sa * sb / (2 ^ w : Nat))
  | 2 => wrap w (sa * (b : Int) / (2 ^ w : Nat))
  | 3 => a * b / 2 ^ w % 2 ^ w
  | 4 => if b = 0 then 2 ^ w - 1 else wrap w (sa.tdiv sb)
  | 5 => if b = 0 then 2 ^ w - 1 else a / b
  | 6 => if b = 0 then a else wrap w (sa.tmod sb)
  | _ => if b = 0 then a else a % b

def rvBranch (f3 a b : Nat) : Option Bool :=
  match f3 with
  | 0 => some (a == b)
  | 1 => some (a != b)
  | 4 => some (decide (signed 64 a < signed 64 b))
  | 5 => some (decide (signed 64 b ≤ signed 64 a))
  | 6 => some (decide (a < b))
  | 7 => some (decide (b ≤ a))
  | _ => none

/-- Immediates of the I, S, B, U and J formats, as 64-bit numbers. -/
def rvImmI (w : Nat) : Nat := sext 12 64 (bits w 20 12)
def rvImmS (w : Nat) : Nat := sext 12 64 (bits w 25 7 * 32 + bits w 7 5)
def rvImmB (w : Nat) : Int :=
  signed 13 (bits w 31 1 * 4096 + bits w 7 1 * 2048 + bits w 25 6 * 32 + bits w 8 4 * 2)
def rvImmU (w : Nat) : Nat := sext 32 64 (bits w 12 20 * 4096)
def rvImmJ (w : Nat) : Int :=
  signed 21 (bits w 31 1 * 2 ^ 20 + bits w 12 8 * 4096 + bits w 20 1 * 2048 + bits w 21 10 * 2)

/-- One instruction: the handler after, its end by ECALL, or none for an exception. -/
def Reed.step (e : ReedEnv) (r : Reed) : Option (Reed ⊕ Reed) :=
  if r.pc % 4 ≠ 0 ∨ e.code.length < r.pc + 4 then none
  else
    let w := field e.code r.pc 4
    let op := w % 128
    let rd := bits w 7 5
    let f3 := bits w 12 3
    let f7 := bits w 25 7
    let a := r.get e (bits w 15 5)
    let b := r.get e (bits w 20 5)
    let next := { r with pc := r.pc + 4 }
    let put := fun (v : Nat) => some (Sum.inl (next.set rd v))
    let jump := fun (r : Reed) (t : Nat) => if t % 4 = 0 then some (Sum.inl { r with pc := t }) else none
    if op = 0x37 then put (rvImmU w)
    else if op = 0x17 then put (r.pc + rvImmU w)
    else if op = 0x6F then jump (r.set rd (r.pc + 4)) (wrap 64 ((r.pc : Int) + rvImmJ w))
    else if op = 0x67 ∧ f3 = 0 then jump (r.set rd (r.pc + 4)) ((a + rvImmI w) % 2 ^ 64 / 2 * 2)
    else if op = 0x63 then
      match rvBranch f3 a b with
      | none => none
      | some true => jump r (wrap 64 ((r.pc : Int) + rvImmB w))
      | some false => some (.inl next)
    else if op = 0x03 then
      let n := 2 ^ (f3 % 4)
      let addr := (a + rvImmI w) % 2 ^ 64
      let v := r.load e addr n
      if f3 = 7 then none
      else
        let next := { next with loads := r.loads ++ ((iota addr n).filter fun k => decide (e.base ≤ k ∧ k < e.base + 128)) }
        some (.inl (next.set rd (if f3 < 4 then sext (8 * n) 64 v else v)))
    else if op = 0x23 then
      if 3 < f3 then none else some (.inl (next.store e ((a + rvImmS w) % 2 ^ 64) (2 ^ f3) b))
    else if op = 0x13 then
      let i := rvImmI w
      if f3 = 1 then (if bits w 26 6 = 0 then put (rvAlu 1 false a (bits w 20 6)) else none)
      else if f3 = 5 then
        (if bits w 26 6 = 0 then put (rvAlu 5 false a (bits w 20 6))
         else if bits w 26 6 = 16 then put (rvAlu 5 true a (bits w 20 6)) else none)
      else put (rvAlu f3 false a i)
    else if op = 0x1B then
      if f3 = 0 then put (sext 32 64 (a + rvImmI w))
      else if f3 = 1 ∧ f7 = 0 ∨ f3 = 5 ∧ (f7 = 0 ∨ f7 = 32) then (rvAlu32 f3 (f7 == 32) a (bits w 20 5)).bind put
      else none
    else if op = 0x33 then
      if f7 = 1 then put (rvMul 64 f3 a b)
      else if f7 = 0 ∨ (f7 = 32 ∧ (f3 = 0 ∨ f3 = 5)) then put (rvAlu f3 (f7 == 32) a b)
      else none
    else if op = 0x3B then
      if f7 = 1 then (if f3 = 1 ∨ f3 = 2 ∨ f3 = 3 then none else put (sext 32 64 (rvMul 32 f3 (a % 2 ^ 32) (b % 2 ^ 32))))
      else if f7 = 0 ∨ (f7 = 32 ∧ (f3 = 0 ∨ f3 = 5)) then (rvAlu32 f3 (f7 == 32) a (b % 2 ^ 32)).bind put
      else none
    else if op = 0x0F ∧ f3 = 0 then some (.inl next)
    else if w = 0x73 then some (.inr r)
    else none

/-- Up to 256 instructions (R398). -/
def Reed.run (e : ReedEnv) (fuel : Nat) (r : Reed) : ReedEnd :=
  match fuel with
  | 0 => .abort 0x30
  | fuel + 1 =>
    match r.step e with
    | none => .abort 0x31
    | some (.inr r) => .done r
    | some (.inl r) => r.run e fuel

/-- A handler's start (R398). -/
def Reed.start (base off : Nat) : Reed :=
  { regs := [(10, base), (11, off), (12, Reed.payloadAt), (13, Reed.scratchAt)], pc := 0, line := [], scratch := [], loads := [] }

end Sys2Proof.Machine
end

