-- ==== Sys2Proof/Machine/Stage.lean ====
section
/-! DEFINITION. The stage board (R173 to R176, R337): operations on a team's board, and the stage instructions. -/

namespace Sys2Proof.Machine

/-! ## The board -/

/-- The value of ITER and of STGET where nothing is held (R174). -/
def noIteration : Nat := 0xFFFFFFFF

def Board.isRetired (b : Board) (i : Nat) : Bool := decide (i < b.oldest) || b.retired.contains i

/-- oldest-live moves past retired iterations (R174). -/
def Board.slide (b : Board) : Board :=
  let rec go (fuel : Nat) (b : Board) : Board :=
    match fuel with
    | 0 => b
    | fuel + 1 =>
      if b.oldest < b.next ∧ b.retired.contains b.oldest then
        go fuel { b with retired := b.retired.filter (· ≠ b.oldest), oldest := b.oldest + 1 }
      else b
  go 64 b

/-- An iteration retires (R174). -/
def Board.retire (b : Board) (i : Nat) : Board :=
  if b.isRetired i then b
  else { b with counters := Sparse.put 0 b.counters (i % 64) 255, retired := b.retired ++ [i] }.slide

/-- The loop has ended (R176). -/
def Board.over (b : Board) : Bool := decide (b.next = b.n ∧ b.oldest = b.n)

/-- A board change; the board is free when its loop ends (R176). -/
def Team.updBoard (t : Team) (f : Board → Board) : Team :=
  { t with board := (t.board.map f).bind fun b => if b.over then none else some b }

/-- Whether the loop that a thread has joined has ended (R174). -/
def Team.loopEnded (t : Team) (th : Thread) : Bool := decide (th.ljoined < t.lstarted) || t.board.isNone

/-- The iteration that a home wave holds (R174): the last it took, unless retired. -/
def Board.heldBy (b : Board) (hw : Nat) : Option Nat :=
  match (b.taken.find? (·.1 = hw)).bind fun p => p.2.getLast? with
  | some i => if i = noIteration ∨ b.isRetired i then none else some i
  | none => none

/-- A counter value before or at retirement (R174): 255 once retired. -/
def Board.counter (b : Board) (i : Nat) : Nat := if b.isRetired i then 255 else Sparse.get 0 b.counters (i % 64)

/-- The throttle (R174). -/
def Board.open? (b : Board) : Bool := decide (b.next < b.oldest + b.w)

/-- The board gives its next iteration. -/
def Board.take (b : Board) : Board :=
  { b with next := b.next + 1, counters := Sparse.put 0 b.counters (b.next % 64) 0 }

/-- Threads of a home wave that have not exited. -/
def Team.homeWave (t : Team) (hw : Nat) : List Thread := t.threads.filter (·.tid / 32 = hw)

/-- A thread, or in HOMEWAVE mode a home wave of which no thread is left, retires the iteration it holds when it exits
(R158, R174). -/
def Team.retireOnExit (t : Team) (th : Thread) : Team :=
  match t.board with
  | none => t
  | some b =>
    let i := if b.homewave then
        (if (t.homeWave (th.tid / 32)).all (·.tid = th.tid) then b.heldBy (th.tid / 32) else none)
      else th.held
    match i with
    | some i => t.updBoard (·.retire i)
    | none => t

/-! ## STGET, once nothing is held -/

/-- What STGET gives a thread now (R174): the board after, and the value; none where the throttle holds it. -/
def Team.stgetNow (t : Team) (th : Thread) : Option (Team × Nat) :=
  match t.board with
  | none => some (t, noIteration)
  | some b =>
    if t.loopEnded th then some (t, noIteration)
    else if !b.homewave then
      if b.next = b.n then some (t, noIteration)
      else if b.open? then some (t.updBoard Board.take, b.next)
      else none
    else
      let hw := th.tid / 32
      let got := ((b.taken.find? (·.1 = hw)).map (·.2)).getD []
      let put := fun (b : Board) (i : Nat) => { b with taken := (b.taken.filter (·.1 ≠ hw)) ++ [(hw, got ++ [i])] }
      match got[th.stgets]? with
      | some i => some (t, i)
      | none =>
        if b.next = b.n then some (t.updBoard fun b => put b noIteration, noIteration)
        else if b.open? then some (t.updBoard fun b => put b.take b.next, b.next)
        else none

/-- A thread receives what STGET gives: the index as a result in D and ITER (R174, R329). What stood in STAGE is outstanding from
the moment the instruction changed it. -/
def State.stgetGive (s : State) (uid tid : Nat) (d : Operand) (i : Nat) : State :=
  let s := s.updThread uid tid fun th => { th with held := if i = noIteration then none else some i, stgets := th.stgets + 1 }
  s.pendAll uid [(tid, operandWrites d 32 i ++ [⟨.iter, i⟩])]

/-- STGET of a thread that holds nothing: it receives its iteration, or answers that it must wait. -/
def State.stget (s : State) (uid tid : Nat) (d : Operand) : Option State :=
  match s.team? uid with
  | none => none
  | some t =>
    match t.thread? tid with
    | none => none
    | some th => (t.stgetNow th).map fun r => (s.updTeam uid fun _ => r.1).stgetGive uid tid d r.2

/-- A holder's iteration ends for a thread (R174): ITER reads all ones. -/
def State.dropIteration (s : State) (uid tid : Nat) : State :=
  (s.updThread uid tid fun th => { th with held := none }).pendAll uid [(tid, [⟨.iter, noIteration⟩])]

/-! ## The instructions -/

/-- STLOOP starts a loop in a team whose board is free (R173). -/
def Team.startLoop (t : Team) (n w : Nat) (homewave : Bool) : Team :=
  { t with board := some { n, w, homewave }, lstarted := t.lstarted + 1 }

def stloopOk (n w : Nat) : Bool := decide (1 ≤ n ∧ n ≤ 2 ^ 32 - 2 ∧ 1 ≤ w ∧ w ≤ 64)

/-- STLOOP for threads in increasing THREADID order (R173). The answer names a thread whose operands fail as it would start
the loop. -/
def stloopAll (x : Issue) (lts : List (Nat × Thread)) (s : State) : State × List (Nat × Nat) :=
  match lts with
  | [] => (s, [])
  | lt :: rest =>
    let uid := x.team.uid
    let tid := lt.2.tid
    let n := x.a lt 32
    let w := x.b lt 32
    let hw := decide (x.f.fn.toNat = 1)
    let join := fun (s : State) => s.updThread uid tid fun th => { th with ljoined := th.ljoined + 1, stgets := 0 }
    match s.team? uid with
    | none => (s, [])
    | some t =>
      if lt.2.ljoined < t.lstarted then stloopAll x rest (join s)
      else if t.board.isSome then
        stloopAll x rest (join (x.block tid (.stloop n w hw) s))
      else if stloopOk n w then stloopAll x rest (join (s.updTeam uid fun t => t.startLoop n w hw))
      else
        let r := stloopAll x rest s
        (r.1, (tid, 4) :: r.2)

/-- A STLOOP whose operands fail for some thread performs nothing for any thread of the wave (R371; log 16). -/
def stloopBody (x : Issue) (s : State) : State × Out :=
  let r := stloopAll x (sortBy (fun lt => lt.2.tid) x.parts) s
  match r.2 with
  | [] => (r.1, .go)
  | infos => (s, .trap Cause.stageMisuse infos)

def execStloop (f : Fields) (s : State) := runWave 0xDB f stloopBody s

/-- Threads that arrive at a stage instruction in HOMEWAVE mode wait for the rest of their holder (R175). -/
def State.stageWait (s : State) (x : Issue) (lts : List (Nat × Thread)) (op : Nat × Thread → StageOp)
    (thenGet : Option Operand) : State :=
  lts.foldl (fun s lt => x.block lt.2.tid (.stage (op lt) thenGet) s) s

/-- STADV, STJMP or STEND of one holder in effect (R174): what stood in STAGE before is kept for reads before a marker. -/
def State.stageApply (s : State) (uid : Nat) (i : Nat) (op : StageOp) : State :=
  s.updTeam uid fun t => t.updBoard fun b =>
    match op with
    | .adv k => { b with counters := Sparse.put 0 b.counters (i % 64) (Sparse.get 0 b.counters (i % 64) + k) }
    | .jmp n => { b with counters := Sparse.put 0 b.counters (i % 64) n }
    | .fin => b.retire i

/-- A stage instruction of one thread in THREAD mode. -/
def State.stageOne (s : State) (uid : Nat) (lt : Nat × Thread) (op : StageOp) : State :=
  match lt.2.held, s.team? uid with
  | some i, some t =>
    let s := (s.stageApply uid i op).pendAll uid [(lt.2.tid, [⟨.stage, t.stageOf lt.2⟩])]
    if op = .fin then s.dropIteration uid lt.2.tid else s
  | _, _ => s

/-- The body of STADV, STJMP and STEND after the checks: a release at .TM (R131), then the effect, at once in THREAD mode. -/
def stageEffect (op : Issue → Nat × Thread → StageOp) : Issue → State → State × Out :=
  afterRelease .tm fun x s =>
    if (x.team.board.map (·.homewave)).getD false then (s.stageWait x x.parts (op x) none, .go)
    else (x.parts.foldl (fun s lt => s.stageOne x.team.uid lt (op x lt)) s, .go)

/-- STAGE_MISUSE 0 where no iteration is held (R337). -/
def notHolding (_ : Issue) (lt : Nat × Thread) : Option Nat := if lt.2.held.isNone then some 0 else none

def stadvErr (x : Issue) (lt : Nat × Thread) : Option Nat :=
  let k := x.a lt 32
  if lt.2.held.isNone then some 0 else if k = 0 ∨ 254 < k then some 3
  else if 254 < x.team.stageOf lt.2 + k then some 1 else none

def execStadv (f : Fields) (s : State) :=
  runWave 0xDD f (unlessRaised Cause.stageMisuse stadvErr (stageEffect fun x lt => .adv (x.a lt 32))) s

/-- An operand beyond 254 (R337). -/
def stageOperandErr (x : Issue) (lt : Nat × Thread) : Option Nat :=
  if lt.2.held.isNone then some 0 else if 254 < x.a lt 32 then some 3 else none

def stjmpBackErr (x : Issue) (lt : Nat × Thread) : Option Nat :=
  if x.a lt 32 ≤ x.team.stageOf lt.2 then some (x.a lt 32) else none

/-- STJMP: where some threads of the wave raise STAGE_MISUSE and others STAGE_BACKWARD, the wave takes STAGE_MISUSE (DESIGN CHOICE:
log 91; R337 does not order them). -/
def execStjmp (f : Fields) (s : State) :=
  runWave 0xDE f (unlessRaised Cause.stageMisuse stageOperandErr
    (unlessRaised Cause.stageBackward stjmpBackErr (stageEffect fun x lt => .jmp (x.a lt 32)))) s

def execStend (f : Fields) (s : State) :=
  runWave 0xE0 f (unlessRaised Cause.stageMisuse notHolding (stageEffect fun _ _ => .fin)) s

/-- The predecessor's counter has passed a stage, or the predecessor has retired (R174). -/
def Team.passed (t : Team) (th : Thread) (n : Nat) : Bool :=
  match th.held, t.board with
  | some i, some b => i == 0 || b.isRetired (i - 1) || decide (n < b.counter (i - 1))
  | _, _ => true

/-- WAITL: threads whose predecessor has not passed leave the wave. -/
def waitlBody (x : Issue) (s : State) : State × Out :=
  (x.parts.foldl (fun s lt =>
    if x.team.passed lt.2 (x.a lt 32) then s
    else x.block lt.2.tid (.waitl (x.a lt 32)) s) s, .go)

def execWaitl (f : Fields) (s : State) := runWave 0xDF f (unlessRaised Cause.stageMisuse stageOperandErr waitlBody) s

def notJoined (_ : Issue) (lt : Nat × Thread) : Option Nat := if lt.2.ljoined = 0 then some 0 else none

/-- STGET of one thread that may hold an iteration: in THREAD mode it retires it at once, in HOMEWAVE mode with its holder. -/
def stgetOne (x : Issue) (lt : Nat × Thread) (s : State) : State :=
  let uid := x.team.uid
  let tid := lt.2.tid
  let homewave := (x.team.board.map (·.homewave)).getD false
  if lt.2.held.isSome ∧ homewave ∧ !x.team.loopEnded lt.2 then
    x.block tid (.stage .fin (some (x.dst lt))) s
  else
    let s := s.pendAll uid [(tid, [⟨.stage, x.team.stageOf lt.2⟩])]
    let s := match lt.2.held with
      | some i => (s.stageApply uid i .fin).updThread uid tid fun th => { th with held := none }
      | none => s
    match s.stget uid tid (x.dst lt) with
    | some s => s
    | none => x.block tid (.stget (x.dst lt)) s

/-- STGET in increasing THREADID order; the retirement of an iteration that a thread holds is a release at .TM (R174). -/
def stgetAll : Issue → State → State × Out :=
  afterReleaseOf (fun lt => lt.2.held.isSome) .tm fun x s =>
    ((sortBy (fun lt => lt.2.tid) x.parts).foldl (fun s lt => stgetOne x lt s) s, .go)

def execStget (f : Fields) (s : State) := runWave 0xDC f (unlessRaised Cause.stageMisuse notJoined stgetAll) s

/-- STQRY (R174). -/
def stqryValue (x : Issue) (lt : Nat × Thread) : Nat :=
  let j := x.a lt 32
  match x.team.board with
  | none => 255
  | some b => if x.team.loopEnded lt.2 then 255 else if b.next ≤ j then 0 else b.counter j

def execStqry (f : Fields) (s : State) :=
  runWave 0xE1 f (unlessRaised Cause.stageMisuse notJoined (computes 32 stqryValue)) s

/-! ## Waits that a board change ends -/

/-- A thread that waits in STLOOP (R173): it joins the current loop, or starts the next where the board is free; operands that
fail trap it alone. -/
def State.settleStloop (s : State) (t : Team) (th : Thread) (n w : Nat) (hw : Bool) : State :=
  if th.ljoined ≤ t.lstarted then s.wake t.uid th.tid
  else if t.board.isSome then s
  else if stloopOk n w then (s.updTeam t.uid fun t => t.startLoop n w hw).wake t.uid th.tid
  else (s.updThread t.uid th.tid fun th => { th with ljoined := th.ljoined - 1 }).trapAlone t.uid th.tid Cause.stageMisuse 4

/-- A thread that waits in STGET. -/
def State.settleStget (s : State) (uid tid : Nat) (d : Operand) : State :=
  match s.stget uid tid d with
  | some s => s.wake uid tid
  | none => s

/-- The stage instruction that a blocked thread waits in. -/
def Thread.stageOp? (th : Thread) : Option StageOp :=
  match th.blocked with
  | some ⟨.stage op _, _, _, _, _, _⟩ => some op
  | _ => none

/-- A member of a holder goes on after the match (R175): past its instruction, or to the rest of its STGET. -/
def State.stagePass (s : State) (uid : Nat) (op : StageOp) (before : Nat) (th : Thread) : State :=
  let s := s.pendAll uid [(th.tid, [⟨.stage, before⟩])]
  match th.blocked with
  | some ⟨.stage _ (some d), len, since, cycle, marker, seat⟩ =>
    (s.updThread uid th.tid fun th => { th with held := none, blocked := some ⟨.stget d, len, since, cycle, marker, seat⟩ }).settleStget uid th.tid d
  | _ => (if op = .fin then s.dropIteration uid th.tid else s).wake uid th.tid

/-- The threads at one address take a trap together, each address in turn (log 14). -/
def State.trapByPc (s : State) (uid : Nat) (cause : Nat) (pcs : List DWord) (ths : List Thread) (info : Thread → Nat) :
    State :=
  match pcs with
  | [] => s
  | pc :: rest =>
    let here := ths.filter (·.pc = pc)
    (s.trapGroup uid (here.map (·.tid)) pc cause (here.map fun th => (th.tid, info th))).trapByPc uid cause rest ths info

/-- A home wave all of whose threads wait in a stage instruction: the instruction takes effect once, or all trap (R175). -/
def State.settleHolder (s : State) (uid hw : Nat) : State :=
  match s.team? uid with
  | none => s
  | some t =>
    let ths := t.homeWave hw
    let ops := ths.map (·.stageOp?)
    match ops, t.board with
    | some op :: rest, some b =>
      if rest.any (·.isNone) then s
      else if rest.all (· = some op) then
        match b.heldBy hw with
        | some i => ths.foldl (fun s th => s.stagePass uid op (Sparse.get 0 b.counters (i % 64)) th) (s.stageApply uid i op)
        | none => s
      else s.trapByPc uid Cause.stageMisuse (distinct (ths.map (·.pc))) ths fun _ => 2
    | _, _ => s

end Sys2Proof.Machine
end

