-- ==== Sys2Proof/Machine/Control.lean ====
section
/-! DEFINITION. Control: branches and calls, exit, regrouping, yield and pause, and the handler registers (R238 to R243). -/

namespace Sys2Proof.Machine

def execNop (f : Fields) (s : State) := runWave 0x00 f (plain fun _ s => s) s

/-! ## Branches and calls (R239) -/

/-- A relative target: PC + 4 * X21, signed. -/
def Issue.target (x : Issue) : DWord := x.pc + BitVec.ofInt 64 (4 * x.f.x21.toInt)

/-- A target from A, with bits 1 and 0 cleared. -/
def Issue.targetA (x : Issue) (lt : Nat × Thread) : DWord := BitVec.ofNat 64 (x.a lt 64 / 4 * 4)

def branchBody (target : Issue → Nat × Thread → DWord) (x : Issue) (s : State) : State × Out :=
  (s, .branch (x.parts.map fun lt => (lt.2.tid, target x lt)))

def execBra (f : Fields) (s : State) := runWave 0x01 f (branchBody fun x _ => x.target) s
def execBrx (f : Fields) (s : State) := runWave 0x02 f (branchBody Issue.targetA) s

/-- A CALL at depth 24: REG_RANGE in the layout of R215 (R157). -/
def callErr (_ : Issue) (lt : Nat × Thread) : Option Nat := if 24 ≤ lt.2.stack.length then some (2 ^ 63 + 24) else none

/-- The return address goes on each participant's stack. -/
def callBody (target : Issue → Nat × Thread → DWord) (x : Issue) (s : State) : State × Out :=
  let next := x.pc + BitVec.ofNat 64 x.len
  (s.updThreads x.team.uid (x.parts.map (·.2.tid)) fun th => { th with stack := next :: th.stack },
   .branch (x.parts.map fun lt => (lt.2.tid, target x lt)))

def execCall (f : Fields) (s : State) :=
  runWave 0x03 f (unlessRaised Cause.regRange callErr (callBody fun x _ => x.target)) s
def execCallx (f : Fields) (s : State) :=
  runWave 0x04 f (unlessRaised Cause.regRange callErr (callBody Issue.targetA)) s

/-! ## Exit (R158, R240) -/

/-- A thread leaves its team for good, with its outstanding results. -/
def Team.exitThread (t : Team) (th : Thread) : Team :=
  let t := t.retireOnExit th
  { t with threads := t.threads.filter (·.tid != th.tid) }

/-- A thread exits; its exit counts as a trigger of its team (R339). -/
def Issue.exitOne (x : Issue) (s : State) (lt : Nat × Thread) : State :=
  (s.leaveWave x.wave.wid [lt.2.tid]).updTeam x.team.uid fun t =>
    match t.thread? lt.2.tid with
    | some th => t.exitThread th
    | none => t

/-- EXIT: a release at .PK first (R132). -/
def exitBody : Issue → State → State × Out :=
  afterRelease .pk fun x s => (x.parts.foldl x.exitOne s, .go)

def execExit (f : Fields) (s : State) := runWave 0x06 f exitBody s

/-- RET: a thread with an empty stack exits, the others continue at the address on top of theirs. -/
def retBody (x : Issue) (s : State) : State × Out :=
  let back := x.parts.filter fun lt => lt.2.stack != []
  let out := x.parts.filter fun lt => lt.2.stack == []
  let s := s.updThreads x.team.uid (back.map (·.2.tid)) fun th => { th with stack := th.stack.tail }
  let s := if out = [] then s else (exitBody { x with parts := out } s).1
  (s, .branch (back.map fun lt => (lt.2.tid, (lt.2.stack.head?).getD 0)))

def execRet (f : Fields) (s : State) := runWave 0x05 f retBody s

/-! ## Regrouping, yield and pause -/

/-- REFORM: each participant leaves for a mere (R161), once the results that the marker covers are written. -/
def reformBody (x : Issue) (s : State) : State × Out :=
  ((distinct (x.parts.map (·.2.tid))).foldl (fun s tid =>
    let s := (x.block tid .results s).updThread x.team.uid tid fun th =>
      { th with blocked := th.blocked.map fun b => { b with seat := none } }
    s.wake x.team.uid tid) s, .go)

def execReform (f : Fields) (s : State) := runWave 0x07 f reformBody s

def execReconv (f : Fields) (s : State) :=
  runWave 0x08 f (plain fun x s => x.parts.foldl (fun s lt => x.block lt.2.tid .reconv s) s) s

/-- YIELD: the wave becomes the youngest (R240), as every wave does when it has issued. -/
def execYield (f : Fields) (s : State) := runWave 0x09 f (plain fun _ s => s) s

def pauseBody (x : Issue) (s : State) : State × Out :=
  (x.parts.foldl (fun s lt =>
    let n := min (x.a lt 32) 65535
    if n = 0 then s else x.block lt.2.tid (.pause (s.now x.team.die + n)) s) s, .go)

def execPause (f : Fields) (s : State) := runWave 0x0D f pauseBody s

/-! ## Traps from programs, and the handler registers (R241, R243) -/

def trapInsnErr (x : Issue) (lt : Nat × Thread) : Option Nat := some (x.a lt 32)

def execTrap (f : Fields) (s : State) := runWave 0x0A f (unlessRaised Cause.trapInsn trapInsnErr (plain fun _ s => s)) s

/-- A handler register: RESUMEPC, HCOUNT, TRAPMASK. -/
def Thread.handlerReg (th : Thread) (n : Nat) : Nat :=
  if n = 0 then th.resumePc.toNat else if n = 1 then th.hcount else th.trapMask.toNat

def literalOf (o : Operand) : Nat :=
  match o with
  | .lit v => v.toNat
  | _ => 0

def execSreg (f : Fields) (s : State) := runWave 0x0E f (computes 64 fun x lt => lt.2.handlerReg (literalOf x.f.a)) s

/-- SWREG reaches RESUMEPC only. -/
def swregBody (x : Issue) (s : State) : State × Out :=
  (x.parts.foldl (fun s lt => s.updThread x.team.uid lt.2.tid fun th =>
    { th with resumePc := BitVec.ofNat 64 (x.b lt 64) }) s, .go)

def execSwreg (f : Fields) (s : State) := runWave 0x0F f swregBody s

end Sys2Proof.Machine
end

