-- ==== Sys2Proof/Machine/MemInstr.lean ====
section
/-! DEFINITION. Loads, stores, atomics, fences and prefetch (R271 to R290). -/

namespace Sys2Proof.Machine

/-! ## Addresses and checks (R273, R274) -/

/-- The byte offset of a memory instruction (R210, R271). -/
def memOffset (op : Nat) (f : Fields) : Int :=
  if op = 0x85 then f.l32.toInt
  else if op = 0x84 ∨ op = 0x86 ∨ op = 0x87 then signed 17 f.x21.toNat
  else f.x21.toInt

/-- EA (R273). -/
def Issue.ea (x : Issue) (lt : Nat × Thread) : Nat := wrap 64 (x.a lt 64 + memOffset x.op x.f)

/-- The local or constant offset of an access. -/
def Issue.offset (x : Issue) (lt : Nat × Thread) : Nat := x.ea lt % 2 ^ 32

def Issue.size (x : Issue) : Nat := x.f.mods.ty.bits / 8

/-- The address space of a memory instruction (FN). -/
def Issue.space (x : Issue) : Space := if x.f.fn = 0 then .g else if x.f.fn = 1 then .l else .k

/-- What a memory instruction does to memory (R13, R275). -/
def Issue.access (x : Issue) : Access :=
  if x.op = 0x80 ∨ x.op = 0x82 then .read else if x.op = 0x81 ∨ x.op = 0x83 then .write else .atomic

/-- The translated parts of a global access that has passed its checks; a local or constant access has none. -/
def Issue.parts' (x : Issue) (lt : Nat × Thread) : List Part :=
  if x.space ≠ .g then []
  else match x.s.translate x.team.tlb x.grid.ctx (x.ea lt) x.size x.access with
  | .ok ps => ps
  | .error _ => []

def spaceCode (sp : Space) : Nat := sp.code

/-- Check 1 (R275). -/
def misalignedErr (x : Issue) (lt : Nat × Thread) : Option Nat :=
  let addr := if x.space = .g then x.ea lt % 2 ^ 52 else x.offset lt
  if 0x82 ≤ x.op ∧ addr % x.size ≠ 0 then
    some (x.size.log2 * 2 ^ 61 + x.access.code * 2 ^ 58 + spaceCode x.space * 2 ^ 56 + addr)
  else none

/-- Check 2 (R29). -/
def constWriteErr (x : Issue) (lt : Nat × Thread) : Option Nat :=
  if x.space = .k ∧ x.access ≠ .read then some (xinfo 12 x.access 3 (x.offset lt)) else none

/-- LOCAL_RANGE of n bytes at a local offset (R25). -/
def localErr (t : Team) (a : Access) (o n : Nat) : Option Nat :=
  if t.localSize < o + n then some (xinfo 13 a 3 (max o t.localSize)) else none

/-- Check 3, of a local access and of a constant load (R25, R29). -/
def localRangeErr (x : Issue) (lt : Nat × Thread) : Option Nat :=
  if x.space = .l then localErr x.team x.access (x.offset lt) x.size else none
def constRangeErr (x : Issue) (lt : Nat × Thread) : Option Nat :=
  if x.space = .k ∧ 32768 < x.offset lt + x.size then some (xinfo 11 x.access 3 (max (x.offset lt) 32768)) else none

/-- Check 4. -/
def xlateErr (x : Issue) (lt : Nat × Thread) : Option Nat :=
  if x.space = .g then
    match x.s.translate x.team.tlb x.grid.ctx (x.ea lt) x.size x.access with
    | .ok _ => none
    | .error i => some i
  else none

/-- Check 5. -/
def permErr (x : Issue) (lt : Nat × Thread) : Option Nat :=
  if x.space = .g then permissionErr (x.parts' lt) x.access else none

/-- Check 6. -/
def parcelErr (x : Issue) (lt : Nat × Thread) : Option Nat :=
  if x.space = .g ∧ x.access ≠ .read then x.s.violation x.grid.ctx (x.parts' lt) x.access else none

/-- Check 7. -/
def embErr (x : Issue) (lt : Nat × Thread) : Option Nat :=
  match x.space with
  | .g => x.s.embargoErr x.team.pkCluster x.grid.ctx false (x.ea lt) x.size (x.access != .read)
  | .l => x.s.embargoErr x.team.pkCluster x.team.uid true (x.offset lt) x.size (x.access != .read)
  | .k => none

/-- The checks of R274, in order, and then the body. -/
def memChecked (body : Issue → State → State × Out) : Issue → State → State × Out :=
  unlessRaised Cause.misalignedAtomic misalignedErr
    (unlessRaised Cause.permission constWriteErr
      (unlessRaised Cause.localRange localRangeErr
        (unlessRaised Cause.permission constRangeErr
          (unlessRaised Cause.xlate xlateErr
            (unlessRaised Cause.permission permErr
              (unlessRaised Cause.parcelViolation parcelErr
                (unlessRaised Cause.embargo embErr body)))))))

/-! ## Refused remote operations (R343) -/

/-- A thread's refused operations, oldest first. -/
def State.refusals (s : State) (uid tid : Nat) : List Remote :=
  sortBy (·.id) (s.remotes.filter fun r => r.uid == uid && r.tid == tid && r.refused.isSome)

/-- The cause a thread would report, with the TRAPINFO of its oldest refused operation of that cause (R344). -/
def State.nackOf (s : State) (uid tid : Nat) : Option (Nat × Nat) :=
  (s.refusals uid tid).head?.bind fun r => r.refused.map fun c => (c.1, c.2 * 2 ^ 58 + r.va % 2 ^ 52)

/-- A release or fence at .SY, a fabric instruction or WBCHK first reports refused operations, the lower cause of the wave
first. -/
def nacksFirst (body : Issue → State → State × Out) (x : Issue) (s : State) : State × Out :=
  let all := x.parts.filterMap fun lt => (s.nackOf x.team.uid lt.2.tid).map fun n => (lt.2.tid, n)
  match minBy (fun n => n.2.1) all with
  | none => body x s
  | some n => (s, .trap n.2.1 ((all.filter fun m => m.2.1 == n.2.1).map fun m => (m.1, m.2.2)))

/-! ## Local memory (R25 to R27, R39) -/

/-- A byte of local memory: what was written, or what its granule held: zero, or a byte that nothing constrains (R27; log 7). -/
def Team.locByte (t : Team) (a : Nat) : Byte :=
  match t.loc.find? fun c => c.1 == a with
  | some c => c.2
  | none => match (t.locFill[a / 4096]?).join with
    | some seed => Config.freeLocal seed a
    | none => 0

def Team.locBytes (t : Team) (a n : Nat) : List Byte := (iota a n).map t.locByte

/-- A write to local memory: the written bytes stand in rising order. -/
def locPut (l : List Host.Cell) (a : Nat) (b : Byte) : List Host.Cell :=
  match l with
  | [] => [(a, b)]
  | (k, c) :: rest => if a < k then (a, b) :: (k, c) :: rest else if a = k then (a, b) :: rest else (k, c) :: locPut rest a b

def Team.locWrite (t : Team) (cells : List Host.Cell) : Team :=
  { t with loc := cells.foldl (fun l c => locPut l c.1 c.2) t.loc }

/-- An atomic on local memory. -/
def Team.locAtomic (t : Team) (a : AtomicOp) : Team := t.locWrite (a.cells (ofBytes (t.locBytes a.addr a.size)))

/-! ## What an access waits for before it issues -/

/-- A thread's previous SO access has not performed (R128). -/
def State.soBusy (s : State) (uid tid : Nat) : Bool :=
  (s.thread? uid tid).any (fun th => th.pend.any fun p => p.parts != 0 && p.pages.any fun g => g.left != 0 && g.kind == .so)
  || (s.msgs.any fun m => m.uid == uid && m.tid == tid && m.kind == .so && m.what.accepted.isSome)
  || (s.deferred.any fun d => d.uid == uid && d.tid == tid && d.kind == .so)

/-- The message carries an access of a thread to some of n bytes, which later accesses of that cluster could pass (R116). -/
def Msg.before (m : Msg) (uid tid a n : Nat) : Bool :=
  let own := m.uid == uid && m.tid == tid
  let meets := fun (b k : Nat) => decide (b < a + n ∧ a < b + k)
  let reads := fun (ws : List Waiter) => ws.any fun w => w.uid == uid && w.tid == tid && meets w.addr w.count
  match m.what with
  | .lookup w => own && meets w.addr w.count
  | .toL1 bs _ => own && bs.any fun b => meets b.1 1
  | .read _ _ _ ws => reads ws
  | .dram _ _ _ ws => reads ws
  | .fill _ _ _ _ ws => reads ws
  | .atomic x _ => own && meets x.addr x.size
  | .l1Atomic x _ => own && meets x.addr x.size
  | _ => false

/-- An access of the thread to some of n bytes has not performed, so that one that follows it waits (R116). -/
def State.lineBusy (s : State) (uid tid a n : Nat) : Bool :=
  (s.msgs.any fun m => m.before uid tid a n)
  || (s.deferred.any fun d => d.uid == uid && d.tid == tid && !d.loc
        && d.lines.any fun l => decide (lineOf a ≤ l ∧ l ≤ lineOf (a + n - 1)))

/-- A range fence of the thread that has not retired orders an access to n bytes: it acquires, or the access writes (R129). -/
def Thread.fenced (th : Thread) (va n : Nat) (writes : Bool) : Bool :=
  th.fences.any fun f => (f.acq || writes) && (Cover.range f.lo f.hi).hits .rc va n

/-- Local bytes that a thread's own waiting release or atomic will write. -/
def State.locBusy (s : State) (uid tid o n : Nat) : Bool :=
  s.deferred.any fun d => d.uid == uid && d.tid == tid && d.loc && decide (d.va < o + n ∧ o < d.va + d.size)

/-- Whether a wave has to issue its access again later. -/
def Issue.mustWait (x : Issue) (s : State) : Bool :=
  x.parts.any fun lt => match x.space with
    | .g => lt.2.fenced (x.ea lt) x.size (x.access != .read) || (x.parts' lt).any fun p =>
        (p.leaf.kind == .so && s.soBusy x.team.uid lt.2.tid) || s.lineBusy x.team.uid lt.2.tid p.addr p.count
    | .l => s.locBusy x.team.uid lt.2.tid (x.offset lt) x.size
    | .k => decide (x.grid.copied * 4 < min (x.offset lt + x.size) (x.grid.lrec.cwords * 4))

/-- The ordering kind of the part of an access in one page (R115): that of an LDACQ or STREL on a UO page is ordered as RC
(R127). -/
def Issue.partKind (x : Issue) (p : Part) : OrdKind :=
  if p.leaf.kind = .uo ∧ (x.op = 0x82 ∨ x.op = 0x83) then .rc else p.leaf.kind

/-- The ordering kind of a participant's aligned access: a local one is covered as RC (R120). -/
def Issue.kind (x : Issue) (lt : Nat × Thread) : OrdKind := ((x.parts' lt).head?.map x.partKind).getD .rc

/-- The parts of a participant's access as its result keeps them (R115). -/
def Issue.pages (x : Issue) (lt : Nat × Thread) : List PendPage :=
  if x.space = .g then (x.parts' lt).map fun p => ⟨x.partKind p, p.va - x.ea lt, p.count, p.count⟩ else [⟨.rc, 0, x.size, x.size⟩]

/-- The global bytes of an access, as a range fence sees them: none for a local access (R129). -/
def Issue.span (x : Issue) (lt : Nat × Thread) : Nat × Nat := if x.space = .g then (x.ea lt, x.size) else (0, 0)

def Issue.fillTlb (x : Issue) (s : State) : State :=
  x.parts.foldl (fun s lt => s.fillParts x.team.tlb x.grid.ctx (x.parts' lt)) s

/-- What the messages of a participant's access, numbered `op`, carry for its part in one page. -/
def Issue.sender (x : Issue) (lt : Nat × Thread) (op : Nat) (p : Part) : Sender :=
  ⟨x.team.uid, lt.2.tid, x.team.pkCluster, x.grid.ctx, op, x.partKind p, x.ea lt, x.size, x.s.seq⟩

/-- The pieces of a part of an access that reach memory whole (R114). -/
def Issue.wholes (x : Issue) (lt : Nat × Thread) (p : Part) : List (Nat × Nat) :=
  accessPieces p.addr p.count (x.ea lt % x.size == 0)

/-! ## Waiting for answers -/

/-- Operations of a wave's threads numbered in a list that are not done: unbound results, and stores or atomics that are not
acknowledged. -/
def State.opsLeft (s : State) (uid : Nat) (ids : List Nat) : Bool :=
  (s.team? uid).any (fun t => t.threads.any fun th => th.pend.any fun p => p.parts != 0 && ids.contains p.id)
  || (s.msgs.any fun m => m.uid == uid && ids.contains m.op && m.what.accepted.isSome)
  || (s.deferred.any fun d => d.uid == uid && ids.contains d.id)

/-- The wave issues nothing until operations are done (R276, R279). -/
def Issue.park (x : Issue) (p : Park) (s : State) : State := s.updWave x.wave.wid fun w => { w with park := some p }

/-- After the accesses of an instruction, numbered in a list: a wave that acquires goes on when they are bound (R279), one with
an access to a polder page when they are answered (R276). -/
def Issue.settle (x : Issue) (ids : List Nat) (acq : Option Scope) (s : State) : State :=
  let polder := x.parts.any fun lt => (x.parts' lt).any (·.leaf.pk)
  let unbound := ((s.team? x.team.uid).map fun t => t.unbound x.wave.tids).getD []
  if polder then x.park { pc := x.pc, ops := ids ++ unbound, acq, mark := true } s
  else match acq with
    | none => s
    | some sc => if s.opsLeft x.team.uid ids then x.park { pc := x.pc, ops := ids, acq } s else s.acquire sc x.team

/-! ## Loads (R277, R279) -/

/-- Whether a part of a load reads at the home slice (R36). -/
def Issue.bypass (x : Issue) (p : Part) : Bool :=
  !p.leaf.eligible || x.f.mods.bit || (x.op == 0x82 && (x.f.mods.sc == .pk || x.f.mods.sc == .sy))

/-- A piece of a load: its page part, the address, and the count. -/
def Issue.pieces (x : Issue) (lt : Nat × Thread) : List (Part × Nat × Nat) :=
  (x.parts' lt).flatMap fun p => (x.wholes lt p).map fun a => (p, a)

/-- The bytes of an address are present in the L1 of the issue's cluster. -/
def Issue.present (x : Issue) (s : State) (a : Nat) : Bool := (s.copy? x.team.pkCluster (lineOf a)).any (·.has a)

/-- A thread whose sectors are all present in L1 (R41). -/
def Issue.hits (x : Issue) (lt : Nat × Thread) : Bool := (x.pieces lt).all fun p => !x.bypass p.1 && x.present x.s p.2.1

/-- One piece of a load numbered `id`: a read at the home slice, a lookup on its way to its L1 slice, or a miss. -/
def Issue.loadPiece (x : Issue) (lt : Nat × Thread) (id : Nat) (p : Part × Nat × Nat) (s : State) : State :=
  let d := x.sender lt id p.1
  let w : Waiter := ⟨x.team.uid, lt.2.tid, id, p.1.va - x.ea lt + (p.2.1 - p.1.addr), p.1.va + (p.2.1 - p.1.addr), p.2.1, p.2.2, []⟩
  if x.bypass p.1 then s.homeRead d w
  else if x.present s p.2.1 then s.send d (lineOf p.2.1) (.lookup w)
  else s.missRead d w

/-- One participant's global load: its number. -/
def Issue.loadOne (x : Issue) (lt : Nat × Thread) (s : State) : State :=
  let id := s.seq
  let ps := x.pieces lt
  let pend : Pend := { id, parts := ps.length, dst := x.dst lt, ty := x.f.mods.ty, load := true,
                       va := x.ea lt, size := x.size, pages := x.pages lt }
  let s := (s.updThread x.team.uid lt.2.tid fun th => { th with pend := th.pend ++ [pend] }).tick
  ps.foldl (fun s p => x.loadPiece lt id p s) s

/-- Numbers that a list of participants takes for its accesses, with the state after. -/
def accessAll (one : Nat × Thread → State → State) (lts : List (Nat × Thread)) (s : State) : State × List Nat :=
  match lts with
  | [] => (s, [])
  | lt :: rest =>
    let r := accessAll one rest (one lt s)
    (r.1, s.seq :: r.2)

/-- The wave splits: the misses are parked (R41), under a marker for their earlier results too (R206). The hits go on. -/
def Issue.split (x : Issue) (miss : List (Nat × Thread)) (ids : List Nat) (s : State) : State :=
  let lanes := miss.map fun lt => (lt.1, lt.2.tid)
  let next := x.pc + BitVec.ofNat 64 x.len
  let s := s.leaveWave x.wave.wid (miss.map (·.2.tid))
  let s := x.advance [] s
  let s := s.updThreads x.team.uid (miss.map (·.2.tid)) fun th =>
    { th with pc := next, hcount := if th.handler then th.hcount + 1 else th.hcount }
  let partner := (s.wave? x.wave.wid).map fun w => (w.wid, w.issued)
  let ops := if x.f.marker then ids ++ x.team.unbound (miss.map (·.2.tid)) else ids
  let park : Park := { pc := next, ops, mark := x.f.marker, split := true, partner }
  { s with waves := s.waves ++ [{ x.wave with wid := s.seq, lanes, age := s.seq, park := some park, since := none }],
           seq := s.seq + 1 }

/-- A global load. -/
def loadGlobal (x : Issue) (s : State) : State × Out :=
  let acq := if x.op = 0x82 then some x.f.mods.sc else none
  let polder := x.parts.any fun lt => (x.parts' lt).any (·.leaf.pk)
  let miss := x.parts.filter fun lt => !x.hits lt
  if x.op = 0x80 ∧ !polder ∧ miss ≠ [] ∧ x.parts.any x.hits then
    let s := (accessAll x.loadOne (x.parts.filter x.hits) (x.fillTlb s)).1
    let r := accessAll x.loadOne miss s
    (x.split miss r.2 r.1, .handled)
  else
    let r := accessAll x.loadOne x.parts (x.fillTlb s)
    (x.settle r.2 acq r.1, .go)

/-- A constant load: bytes of the grid's snapshot (R28). -/
def Issue.constBytes (x : Issue) (lt : Nat × Thread) : Nat :=
  let o := x.offset lt
  ofBytes ((iota o x.size).map fun a => BitVec.ofNat 8 (x.grid.const (a / 4) / 256 ^ (a % 4)))

/-- A load from local or constant space, which is bound as it issues (DESIGN CHOICE: log 124). -/
def loadNear (val : Nat × Thread → Nat) (x : Issue) (s : State) : State × Out :=
  let s := x.write x.f.mods.ty.regBits (fun lt => extendLoad x.f.mods.ty (val lt)) s
  (if x.op = 0x82 then s.acquire x.f.mods.sc x.team else s, .go)

def loadBody (x : Issue) (s : State) : State × Out :=
  if x.mustWait s then (s, .again)
  else match x.space with
    | .g => loadGlobal x s
    | .l => loadNear (fun lt => ofBytes (x.team.locBytes (x.offset lt) x.size)) x s
    | .k => loadNear x.constBytes x s

def execLd (f : Fields) (s : State) := runWave 0x80 f (memChecked loadBody) s
def execLdacq (f : Fields) (s : State) := runWave 0x82 f (memChecked loadBody) s

/-! ## Stores and atomics (R278 to R284) -/

/-- The bytes of a store's datum. -/
def Issue.datum (x : Issue) (lt : Nat × Thread) : List Byte := toBytes x.size (x.b lt x.f.mods.ty.regBits)

/-- The bytes that a participant's store writes in one page. -/
def Issue.partCells (x : Issue) (lt : Nat × Thread) (p : Part) : List Host.Cell :=
  cellsAt p.addr (((x.datum lt).drop (p.va - x.ea lt)).take p.count)

/-- The cells that a store writes, by the model's address of each page part. -/
def Issue.storeCells (x : Issue) (lt : Nat × Thread) : List Host.Cell :=
  (x.parts' lt).flatMap (x.partCells lt)

/-- One participant's global store: each page's part with its own kind (R115), and each piece that is written whole (R114). -/
def Issue.storeOne (x : Issue) (lt : Nat × Thread) (s : State) : State :=
  let id := s.seq
  (x.parts' lt).foldl (fun s p =>
    (x.wholes lt p).foldl (fun s a =>
      s.store (x.sender lt id p) p.leaf.pk (!p.leaf.pk && p.leaf.kind != .so)
        ((x.partCells lt p).filter fun c => decide (a.1 ≤ c.1 ∧ c.1 < a.1 + a.2))) s) s.tick

/-- The atomic of a participant at an address. -/
def Issue.atomicAt (x : Issue) (lt : Nat × Thread) (addr : Nat) : AtomicOp :=
  { op := x.op, code := if x.op = 0x85 then 0 else bits x.f.x21.toNat 17 4, ty := x.f.mods.ty, addr,
    b := if x.op = 0x86 then x.fbits 2 lt x.f.b x.f.mods.ty else x.b lt x.f.mods.ty.regBits % 2 ^ x.f.mods.ty.bits,
    c := if x.op = 0x85 then x.c lt x.f.mods.ty.regBits else 0 }

/-- Whether an atomic is performed at the L1 slice, on the held line (R49). -/
def Issue.atHeld (x : Issue) (p : Part) : Bool := p.leaf.eligible && x.f.mods.sc != .pk && x.f.mods.sc != .sy

/-- An atomic leaves for its home slice; the cluster's copy is invalidated (R49). -/
def State.homeAtomic (s : State) (d : Sender) (a : AtomicOp) (pend : Option Nat) : State :=
  (s.dropLines d.cluster (· = lineOf a.addr)).send d (lineOf a.addr) (.atomic a pend)

/-- The outstanding result of an atomic; RED has none (R284). -/
def Issue.pendAtomic (x : Issue) (lt : Nat × Thread) (s : State) : State :=
  if x.op = 0x87 then s.tick
  else
    let pend : Pend := { id := s.seq, parts := 1, dst := x.dst lt, ty := x.f.mods.ty, load := true,
                         va := (x.span lt).1, size := (x.span lt).2, pages := x.pages lt }
    (s.updThread x.team.uid lt.2.tid fun th => { th with pend := th.pend ++ [pend] }).tick

/-- One participant's global atomic. -/
def Issue.atomicOne (x : Issue) (lt : Nat × Thread) (s : State) : State :=
  let id := s.seq
  let pend := if x.op = 0x87 then none else some id
  match x.parts' lt with
  | p :: _ =>
    let d := x.sender lt id p
    let a := x.atomicAt lt p.addr
    if x.atHeld p then (x.pendAtomic lt s).l1Atomic d a pend else (x.pendAtomic lt s).homeAtomic d a pend
  | [] => s.tick

/-- One participant's local store or atomic; an atomic's old value is bound at once. -/
def Issue.localOne (x : Issue) (lt : Nat × Thread) (s : State) : State :=
  match s.team? x.team.uid with
  | none => s.tick
  | some t =>
    let o := x.offset lt
    if x.access = .write then (s.updTeam x.team.uid fun t => t.locWrite (cellsAt o (x.datum lt))).tick
    else
      let id := s.seq
      let s := x.pendAtomic lt s
      let s := if x.op = 0x87 then s else s.bind x.team.uid lt.2.tid id 0 (t.locBytes o x.size)
      s.updTeam x.team.uid fun t => t.locAtomic (x.atomicAt lt o)

/-- A participant's store or atomic. -/
def Issue.writeOne (x : Issue) (lt : Nat × Thread) (s : State) : State :=
  if x.space = .l then x.localOne lt s
  else if x.access = .write then x.storeOne lt s
  else x.atomicOne lt s

/-- A participant's store or atomic that waits for its release (R120): it is not accepted until the release takes effect. -/
def Issue.deferOne (x : Issue) (since : Nat) (lt : Nat × Thread) (s : State) : State :=
  let id := s.seq
  let loc := decide (x.space = .l)
  let ps := x.parts' lt
  let addr := if loc then x.offset lt else (ps.head?.map Part.addr).getD 0
  let what : Sum (List Host.Cell) (AtomicOp × Option Nat) :=
    if x.access = .write then .inl (cellsAt addr (x.datum lt))
    else .inr (x.atomicAt lt addr, if x.op = 0x87 then none else some id)
  let home := match ps with
    | p :: _ => if x.access = .write then p.leaf.pk || p.leaf.kind == .so else !x.atHeld p
    | [] => false
  let s := if x.access = .write then s.tick else x.pendAtomic lt s
  { s with deferred := s.deferred ++ [{
      id, uid := x.team.uid, tid := lt.2.tid, cluster := x.team.pkCluster, sc := x.f.mods.sc, since, ctx := x.grid.ctx,
      kind := x.kind lt, loc, home, va := if loc then x.offset lt else x.ea lt, size := x.size, lines := [lineOf addr], what }] }

/-- Whether an instruction releases, and acquires (R279, R281, R285). -/
def Issue.releases (x : Issue) : Bool := x.op == 0x83 || (0x84 ≤ x.op && (x.f.mods.ord == .rel || x.f.mods.ord == .ar))
def Issue.acquires (x : Issue) : Option Scope :=
  if 0x84 ≤ x.op ∧ x.op ≤ 0x86 ∧ (x.f.mods.ord = .acq ∨ x.f.mods.ord = .ar) then some x.f.mods.sc else none

/-- Every participant's release takes effect now. -/
def Issue.releasesNow (x : Issue) (s : State) : Bool := x.parts.all fun lt => s.relOk .normal x.f.mods.sc x.team lt.2 s.seq

/-- Stores and atomics: they are performed one at a time in increasing lane order (R280). One that releases waits, in order,
until the releases have taken effect; at .SY the wave waits. -/
def writeBody (x : Issue) (s : State) : State × Out :=
  if x.mustWait s then (s, .again)
  else if x.releases && !x.releasesNow s then
    if x.f.mods.sc = .sy then (s, .again)
    else
      let r := accessAll (x.deferOne s.seq) x.parts (x.fillTlb s).tick
      (x.settle r.2 x.acquires r.1, .go)
  else
    let r := accessAll x.writeOne x.parts (x.fillTlb s)
    (x.settle r.2 x.acquires r.1, .go)

/-- The reports of R343 come before a release at .SY. -/
def releaseReports (body : Issue → State → State × Out) (x : Issue) (s : State) : State × Out :=
  if x.releases && x.f.mods.sc == .sy then nacksFirst body x s else body x s

def execSt (f : Fields) (s : State) := runWave 0x81 f (memChecked writeBody) s
def execStrel (f : Fields) (s : State) := runWave 0x83 f (releaseReports (memChecked writeBody)) s
def execAtom (f : Fields) (s : State) := runWave 0x84 f (releaseReports (memChecked writeBody)) s
def execAtomc (f : Fields) (s : State) := runWave 0x85 f (releaseReports (memChecked writeBody)) s
def execAtomf (f : Fields) (s : State) := runWave 0x86 f (releaseReports (memChecked writeBody)) s
def execRed (f : Fields) (s : State) := runWave 0x87 f (releaseReports (memChecked writeBody)) s

/-- A store or atomic whose release has taken effect performs. -/
def State.performDeferred (s : State) (d : Deferred) : State :=
  let s := { s with deferred := s.deferred.filter (·.id != d.id) }
  let sd : Sender := ⟨d.uid, d.tid, d.cluster, d.ctx, d.id, d.kind, d.va, d.size, d.since⟩
  match d.what, d.loc with
  | .inl cells, true => s.updTeam d.uid fun t => t.locWrite cells
  | .inl cells, false => s.store sd (cells.any fun c => isPolder c.1) (!d.home) cells
  | .inr (a, pend), true =>
    match s.team? d.uid with
    | none => s
    | some t =>
      let s := match pend with
        | some p => s.bind d.uid d.tid p 0 (t.locBytes a.addr a.size)
        | none => s
      s.updTeam d.uid fun t => t.locAtomic a
  | .inr (a, pend), false => if d.home then s.homeAtomic sd a pend else s.l1Atomic sd a pend

/-! ## Fences (R286, R287, R129) -/

/-- The lines of a context's pages in a range, at this moment, whose leaves are L1-eligible: whether one contains a line. -/
def State.rangeLine (s : State) (u : TlbUnit) (ctx lo hi line : Nat) : Bool :=
  (iota (lo / 2 ^ 16) ((hi + 2 ^ 16 - 1) / 2 ^ 16 - lo / 2 ^ 16)).any fun pg =>
    match s.xlate u ctx (pg * 2 ^ 16) with
    | .error _ => false
    | .ok l =>
      let a := max lo (pg * 2 ^ 16)
      let b := min hi ((pg + 1) * 2 ^ 16)
      l.eligible && decide (l.addr a / 128 ≤ line ∧ line ≤ l.addr (b - 1) / 128)

/-- A range acquire of virtual addresses lo to hi - 1 (event 3 of R38); over 1 MiB it is a flash invalidation. -/
def State.rangeAcquire (s : State) (u : TlbUnit) (cluster ctx lo hi : Nat) : State :=
  if hi ≤ lo then s
  else if 2 ^ 20 < hi - lo then s.flash cluster
  else s.dropLines cluster (s.rangeLine u ctx lo hi)

/-- The range of a FENCER: its end, cut at 2^52. -/
def Issue.fenceRange (x : Issue) (lt : Nat × Thread) : Nat × Nat :=
  let base := x.a lt 64
  (base, min (base + x.b lt 64) (2 ^ 52))

/-- Whether a fence may retire for a thread: its release has taken effect, and its earlier loads are bound. -/
def State.fenceOk (s : State) (cover : Cover) (sc : Scope) (rel acq : Bool) (t : Team) (th : Thread) (since : Nat) : Bool :=
  (!rel || s.relOk cover sc t th since) && (!acq || loadsBound cover since th)

/-- FENCE: the wave waits until it has retired for every participant (R286). -/
def fenceBody (x : Issue) (s : State) : State × Out :=
  let since := x.wave.since.getD s.seq
  let sc := x.f.mods.sc
  let cover : Cover := if sc = .sy then .all else .normal
  if x.parts.all fun lt => s.fenceOk cover sc (x.f.mods.ord != .acq) (x.f.mods.ord != .rel) x.team lt.2 since then
    (if x.f.mods.ord = .rel ∨ x.parts = [] then s else s.acquire sc x.team, .go)
  else ((s.updWave x.wave.wid fun w => { w with since := some since }).tick, .again)

/-- The reports of R343 come before a fence at .SY. -/
def fenceReports (body : Issue → State → State × Out) (x : Issue) (s : State) : State × Out :=
  if x.f.mods.sc = .sy then nacksFirst body x s else body x s

def execFence (f : Fields) (s : State) := runWave 0x88 f (fenceReports fenceBody) s

/-- A range fence of a participant, which retires on its own: accesses outside its range pass it freely (R129). -/
def Issue.fencerOne (x : Issue) (s : State) (lt : Nat × Thread) : State :=
  let r := x.fenceRange lt
  let f : RangeFence := ⟨s.seq, r.1, r.2, x.f.mods.sc, x.f.mods.ord != .acq, x.f.mods.ord != .rel⟩
  (s.updThread x.team.uid lt.2.tid fun th => { th with fences := th.fences ++ [f] }).tick

def execFencer (f : Fields) (s : State) := runWave 0x89 f (plain fun x s => x.parts.foldl x.fencerOne s) s

/-- A range fence that may retire does: its acquire invalidates the copies in its range (R129, R287). -/
def State.retireFence (s : State) (t : Team) (th : Thread) (f : RangeFence) : State :=
  if s.fenceOk (.range f.lo f.hi) f.sc f.rel f.acq t th f.id then
    let s := s.updThread t.uid th.tid fun th => { th with fences := th.fences.filter (·.id != f.id) }
    if f.acq then s.rangeAcquire t.tlb t.pkCluster (s.ctxOf t) f.lo f.hi else s
  else s

/-! ## Prefetch (R288) -/

/-- A prefetch of one participant; it is dropped where any check of R274 would fail. R104 drops it in an embargoed range without
saying of which kind, nor how much of the line counts: the model tests the byte at EA as a read, so against write embargoes
(DESIGN CHOICE: log 104). -/
def Issue.prefetch (x : Issue) (s : State) (lt : Nat × Thread) : State :=
  let ea := x.ea lt
  match s.translate x.team.tlb x.grid.ctx ea 1 .read with
  | .error _ => s
  | .ok ps =>
    match ps, permissionErr ps .read, s.embargoErr x.team.pkCluster x.grid.ctx false ea 1 false with
    | [p], none, none =>
      let line := lineOf p.addr
      if p.leaf.pk then s
      else if s.bypassed line then s
      else
        let s := s.fill x.team.tlb x.grid.ctx p.va p.leaf
        if p.leaf.eligible then
          (iota 0 4).foldl (fun s k =>
            if (s.copy? x.team.pkCluster line).any fun c => c.valid.getLsbD k then s
            else s.send ⟨x.team.uid, lt.2.tid, x.team.pkCluster, x.grid.ctx, 0, .uo, ea, 1, x.s.seq⟩ line
              (.read k true (s.unacked x.team.pkCluster line) [])) s
        else s.useL2 line 15 0
    | _, _, _ => s

def execPref (f : Fields) (s : State) := runWave 0x8A f (plain fun x s => x.parts.foldl x.prefetch s) s

end Sys2Proof.Machine
end

