-- ==== Sys2Proof/Machine/Sync.lean ====
section
/-! DEFINITION. Barriers, RECONV, events, tasks and sorting offices (R164 to R171, R330 to R336), JOIN and LAUNCHDEP. -/

namespace Sys2Proof.Machine

/-! ## Waves formed again at their home lanes (R164, R167) -/

/-- The instruction after the one a thread waits in. -/
def Thread.after (th : Thread) : DWord := th.pc + BitVec.ofNat 64 ((th.blocked.map (·.len)).getD 0)

/-- Threads of one home wave that stand at one next address issue as one wave, each at its home lane; a marker's results first. -/
def State.goHome (s : State) (uid : Nat) (ths : List Thread) (next : DWord) : State :=
  match s.team? uid with
  | none => s
  | some t =>
    let tids := ths.map (·.tid)
    let marked := ths.any fun th => (th.blocked.bind (·.marker)).isSome
    let ids := if marked then ths.flatMap (fun th => (th.blocked.bind (·.marker)).getD []) ++ t.unbound tids else []
    let go := fun (th : Thread) =>
      { th with pc := next, blocked := none, hcount := if th.handler then th.hcount + 1 else th.hcount }
    let wid := s.seq
    let s := (s.updThreads uid tids go).addWave uid (homeLanes tids)
    if !marked then s
    else if t.boundAll ids then s.updTeam uid fun t => t.flushAll s.lastResult tids
    else s.updWave wid fun w => { w with park := some { pc := next, ops := ids, mark := true } }

/-- Released threads, one wave for each home wave and next address. -/
def State.goHomeAll (s : State) (uid : Nat) (keys : List (Nat × DWord)) (ths : List Thread) : State :=
  match keys with
  | [] => s
  | k :: rest => (s.goHome uid (ths.filter fun th => th.tid / 32 = k.1 ∧ th.after = k.2) k.2).goHomeAll uid rest ths

def State.releaseHome (s : State) (uid : Nat) (ths : List Thread) : State :=
  s.goHomeAll uid (distinct (ths.map fun th => (th.tid / 32, th.after))) ths

/-! ## Barriers (R165, R166) -/

def Team.barrier (t : Team) (b : Nat) : Barrier := t.barriers.getD b {}

def Team.setBarrier (t : Team) (b : Nat) (x : Barrier) : Team := { t with barriers := t.barriers.set b x }

/-- A thread's latest arrival at a barrier. -/
def Thread.arrival (th : Thread) (b : Nat) : Option Nat := (th.arrived.find? (·.1 == b)).map (·.2)

/-- A thread arrives in the current phase. -/
def Team.arrive (t : Team) (b tid : Nat) : Team :=
  let x := t.barrier b
  (t.setBarrier b { x with count := x.count + 1 }).updThread tid fun th =>
    { th with arrived := (th.arrived.filter (·.1 != b)) ++ [(b, x.phase)] }

/-- BAR and BARA of one participant. -/
def Issue.arriveOne (x : Issue) (stay : Bool) (s : State) (lt : Nat × Thread) : State :=
  let b := literalOf x.f.a
  match s.team? x.team.uid with
  | none => s
  | some t =>
    let ph := (t.barrier b).phase
    if lt.2.arrival b = some ph then x.block lt.2.tid (.arrive b ph stay) s
    else
      let s := s.updTeam x.team.uid fun t => t.arrive b lt.2.tid
      if stay then x.block lt.2.tid (.barrier b ph) s else s

def barBody (stay : Bool) : Issue → State → State × Out :=
  afterRelease .tm fun x s => (x.parts.foldl (x.arriveOne stay) s, .go)

def execBar (f : Fields) (s : State) := runWave 0xD0 f (barBody true) s
def execBara (f : Fields) (s : State) := runWave 0xD1 f (barBody false) s

/-- BARW: a participant waits for the phase of its latest arrival, if that phase is not over. -/
def barwBody (x : Issue) (s : State) : State × Out :=
  let b := literalOf x.f.a
  (x.parts.foldl (fun s lt =>
    if lt.2.arrival b = some (x.team.barrier b).phase then x.block lt.2.tid (.barrier b (x.team.barrier b).phase) s else s) s,
   .go)

def execBarw (f : Fields) (s : State) := runWave 0xD2 f barwBody s

/-- The barrier and phase of a wait that the end of that phase releases. -/
def Thread.barrierWait? (th : Thread) : Option (Nat × Nat) :=
  match th.wait? with
  | some (.barrier b p) => some (b, p)
  | _ => none

/-- Threads that wait to arrive again at a barrier whose phase is over arrive (R165). -/
def State.rearrive (s : State) (uid : Nat) (ths : List Thread) : State :=
  match ths with
  | [] => s
  | th :: rest =>
    let s := match th.blocked, s.team? uid with
      | some bl, some t => match bl.wait with
        | .arrive b p stay =>
          if p < (t.barrier b).phase then
            let s := s.updTeam uid fun t => t.arrive b th.tid
            if stay then s.updThread uid th.tid fun th =>
              { th with blocked := some { bl with wait := .barrier b (t.barrier b).phase } }
            else s.wake uid th.tid
          else s
        | _ => s
      | _, _ => s
    s.rearrive uid rest

/-- Every barrier whose arrivals have reached the threads left completes its phase (R166), and those it releases go on. -/
def State.settleBarriers (s : State) (uid : Nat) : State :=
  match s.team? uid with
  | none => s
  | some t =>
    let n := t.threads.length
    let full := fun (b : Barrier) => decide (0 < b.count ∧ n ≤ b.count)
    if t.barriers.any full then
      let s := s.updTeam uid fun t =>
        { t with barriers := updWhere full (fun b => { phase := b.phase + 1, count := 0 }) t.barriers }
      match s.team? uid with
      | none => s
      | some t =>
        let out := t.threads.filter fun th => th.barrierWait?.any fun w => decide (w.2 < (t.barrier w.1).phase)
        (s.releaseHome uid out).rearrive uid (sortBy (·.tid) t.threads)
    else s

/-! ## RECONV (R164) -/

def Thread.inReconv (th : Thread) : Bool := th.wait? == some .reconv

/-- Home waves of a team. -/
def Team.homeWaveNumbers (t : Team) : List Nat := distinct (t.threads.map (·.tid / 32))

def Team.reconvReady (t : Team) (hw : Nat) : Bool :=
  match t.homeWave hw with
  | [] => false
  | th :: rest => th.inReconv && rest.all fun u => u.inReconv && u.pc == th.pc

def State.settleReconv (s : State) (uid : Nat) (hws : List Nat) : State :=
  match hws with
  | [] => s
  | hw :: rest =>
    let s := match s.team? uid with
      | none => s
      | some t => if t.reconvReady hw then s.releaseHome uid (t.homeWave hw) else s
    s.settleReconv uid rest

/-! ## BARRIER_UNREACHABLE (R168) -/

/-- TRAPINFO of a thread that waits at a barrier or in RECONV; none of another. -/
def Thread.stuckInfo (th : Thread) : Option Nat :=
  match th.wait? with
  | some (.barrier b _) => some b
  | some (.arrive b _ _) => some b
  | some .reconv => some 16
  | _ => none

/-- A wait at a barrier that some phase's end has released, or will in this step. -/
def Team.movable (t : Team) (th : Thread) : Bool :=
  let n := t.threads.length
  match th.wait? with
  | some (.barrier b p) => decide (p < (t.barrier b).phase ∨ n ≤ (t.barrier b).count)
  | some (.arrive b p _) => decide (p < (t.barrier b).phase ∨ n ≤ (t.barrier b).count)
  | some .reconv => t.reconvReady (th.tid / 32)
  | _ => true

def Team.unreachable (t : Team) : Bool :=
  !t.threads.isEmpty && t.threads.all fun th => th.stuckInfo.isSome && !t.movable th

/-- Every waiting thread of the team traps at its waiting instruction. -/
def State.barrierUnreachable (s : State) (uid : Nat) : State :=
  match s.team? uid with
  | none => s
  | some t =>
    if t.unreachable then
      let all := (distinct (t.threads.map (·.tid))).filterMap t.thread?
      (distinct (all.map fun th => (th.tid / 32, th.pc))).foldl (fun s k =>
        let ths := all.filter fun th => th.tid / 32 = k.1 ∧ th.pc = k.2
        s.trapGroup uid (ths.map (·.tid)) k.2 Cause.barrierUnreachable (ths.map fun th => (th.tid, th.stuckInfo.getD 0))) s
    else s

/-! ## Events (R331, R332) -/

/-- The 256 event bits of a context at a cluster. -/
def State.evBits (s : State) (cluster ctx : Nat) : BitVec 256 :=
  ((s.events.find? fun e => e.1 == cluster && e.2.1 == ctx).map (·.2.2)).getD 0

def State.setEvBits (s : State) (cluster ctx : Nat) (v : BitVec 256) : State :=
  let rest := s.events.filter fun e => !(e.1 == cluster && e.2.1 == ctx)
  { s with events := if v = 0 then rest else rest ++ [(cluster, ctx, v)] }

def evWord (v : BitVec 256) (w : Nat) : Nat := bits v.toNat (64 * w) 64

/-- A 64-bit mask at word w of the event bits. -/
def evMask (w m : Nat) : BitVec 256 := BitVec.ofNat 256 (m % 2 ^ 64 * 2 ^ (64 * w))

def Issue.updEvents (x : Issue) (s : State) (g : BitVec 256 → BitVec 256) : State :=
  s.setEvBits x.team.pkCluster x.grid.ctx (g (s.evBits x.team.pkCluster x.grid.ctx))

def evsetBody : Issue → State → State × Out :=
  afterRelease .cl fun x s =>
    (x.parts.foldl (fun s lt => x.updEvents s (· ||| evMask (x.a lt 32 % 4) (x.b lt 64))) s, .go)

def execEvset (f : Fields) (s : State) := runWave 0xD3 f evsetBody s

def execEvclr (f : Fields) (s : State) :=
  runWave 0xD4 f (plain fun x s => x.parts.foldl (fun s lt => x.updEvents s (· &&& ~~~ evMask (x.a lt 32 % 4) (x.b lt 64))) s) s

def execEvread (f : Fields) (s : State) :=
  runWave 0xD6 f (computes 64 fun x lt => evWord (x.s.evBits x.team.pkCluster x.grid.ctx) (x.a lt 32 % 4)) s

def evDone (word m : Nat) (any : Bool) : Bool :=
  if any then m = 0 || word &&& m != 0 else word &&& m == m

/-! ## Tasks (R169 to R171, R333, R334) -/

/-- The record's fields (R169). -/
def taskEntry (r : List Byte) : Nat := field r 0 8
def taskFlags (r : List Byte) : Nat := field r 120 8

def entryOk (e : Nat) : Bool := decide (e % 4 = 0 ∧ e < 2 ^ 52)

/-- A task record placed in a pool. -/
def taskOf (cluster ctx : Nat) (far : Bool) (r : List Byte) : Task :=
  { cluster, ctx, far, entry := BitVec.ofNat 64 (taskEntry r), waitMask := field r 8 32, setMask := field r 40 32,
    args := (iota 0 10).map fun k => BitVec.ofNat 32 (field r (72 + 4 * k) 4), key := BitVec.ofNat 64 (field r 112 8),
    consume := taskFlags r % 2 = 1 }

def State.poolSize (s : State) (cluster : Nat) : Nat := (s.pool.filter (·.cluster == cluster)).length

/-- Whether a team is a task-host team that threads still run in. -/
def State.isTaskHost (s : State) (t : Team) : Bool := (s.grid? t.gid).any fun g => g.lrec.taskHost

/-- Clusters that run a task-host team of a context. -/
def State.hostClusters (s : State) (ctx : Nat) : List Nat :=
  (s.teams.filter fun t => t.status == .resident && s.ctxOf t == ctx && s.isTaskHost t).map (·.pkCluster)

/-- The cluster that .ANY chooses (R171); with no task-host team, one that nothing states (log 20). -/
def State.anyCluster (s : State) (ctx lane : Nat) : Nat :=
  (minBy (fun c => s.poolSize c * 128 + c) (s.hostClusters ctx)).getD (s.choose [10, lane] 128)

/-- The statuses' result words (R58, R329). -/
def statusWord (code reason : Nat) : Nat := 2 ^ 31 + reason * 256 + code

/-- A context's queue of reports has room (R373). -/
def State.reportRoom (s : State) (ctx : Nat) : Bool := (s.ctx? ctx).all fun c => decide (c.reports.length < 64)

/-- A pool or queue has room for a record. -/
def State.roomFor (s : State) (r : Staged) : Bool :=
  if r.launch then decide ((s.pendingLaunches.filter (·.cluster == r.cluster)).length < 4) else decide (s.poolSize r.cluster < 512)

/-- A record enters its pool or queue. -/
def State.enter (s : State) (r : Staged) : State :=
  if r.launch then { s with pendingLaunches := s.pendingLaunches ++ [⟨r.cluster, r.ctx, r.gid, r.record, r.pages⟩] }
  else { s with pool := s.pool ++ [taskOf r.cluster r.ctx r.far r.record] }

/-- An entry of a record's pool or queue has become free in this cycle, for a record that is about to be written to the ring (R369). -/
def State.freedFor (s : State) (r : Staged) : Bool := s.happened [if r.launch then 34 else 35, r.cluster] && s.roomFor r

/-- What the next position of a context's dead-letter ring does with a record (R362, R363): the ring is full; its page fails, with
TRAPINFO; the record is written. -/
inductive RingWrite where
  | full
  | fails (info : Nat)
  | written (s : State)
  deriving DecidableEq, Repr

def State.writeRing (s : State) (r : Staged) : RingWrite :=
  match s.ctx? r.ctx with
  | none => .written s
  | some c =>
    if c.dlrSize ≤ c.put - c.take then .full
    else
      let tag := (if r.launch then 2 else 1) * 2 ^ 62 + r.cluster * 2 ^ 48 + (!r.launch && taskFlags r.record % 2 == 1).toNat
      let va := c.dlrBase.toNat + 128 * (c.put % c.dlrSize)
      match s.writeCells (.cluster r.cluster) r.ctx va (r.record.take 120 ++ toBytes 8 tag) .write with
      | .error info => .fails info
      | .ok cells => .written ((s.homeWrite cells).updCtx r.ctx fun c => { c with
          put := c.put + 1, dlrParents := c.dlrParents ++ (if r.launch then [(c.put, r.gid)] else [])
          dlrNear := c.dlrNear ++ (if r.launch || r.far then [] else [c.put]) })

/-- What becomes of a posted record (R333, R338): it is placed, with the result word; or the thread waits, for space in the ring, or,
with the TRAPINFO of the ring's page that fails, for room in the staging buffer and for its report (R373). -/
inductive Posted where
  | placed (s : State) (w : Nat)
  | full
  | held (info : Nat)
  deriving DecidableEq, Repr

/-- A record whose page of the ring fails goes to its target cluster's staging buffer (DEDUCED: log 39), and the fault is reported. -/
def State.stage (s : State) (r : Staged) (info : Nat) : Posted :=
  if (s.staging.filter (·.cluster == r.cluster)).length < 4 && s.reportRoom r.ctx then
    .placed (({ s with staging := s.staging ++ [{ r with retry := false }] }).report r.ctx
      ⟨Cause.deadletterFault, info, 0, .deadLetterStage r.cluster⟩) 1
  else .held info

/-- A record that found its pool or queue full goes to the dead-letter ring, or to the staging buffer. -/
def State.deadLetter (s : State) (r : Staged) : Posted :=
  match s.writeRing r with
  | .full => if r.launch then .full else .placed s (statusWord 0x15 0)
  | .fails info => s.stage r info
  | .written s => .placed s 1

/-- Idle (R334); after a marked TASKEND, once the results that the marker covers are bound (R206). -/
def Team.idle (t : Team) (th : Thread) : Bool :=
  th.wait? == some .idle && match th.blocked.bind (·.marker) with
    | some ids => t.boundAll (ids ++ t.unbound [th.tid])
    | none => true

/-- A task is ready (R170). -/
def Task.readyWith (k : Task) (ev : Nat) : Bool := k.waitMask &&& ev == k.waitMask

/-- The ready tasks of a context and an ENTRY in a cluster's pool, in order of arrival, at most n; those that consume clear their
bits for the later ones (R170, R171). The answer: the tasks taken with their places in the pool, and the bits after. -/
def takeReady (n : Nat) (mine : Task → Bool) (k : Nat) (ev : Nat) (ts : List Task) : List (Nat × Task) × Nat :=
  match n, ts with
  | 0, _ => ([], ev)
  | _, [] => ([], ev)
  | n + 1, t :: rest =>
    if mine t && t.readyWith ev then
      let r := takeReady n mine (k + 1) (if t.consume then ev &&& (2 ^ 256 - 1 - t.waitMask) else ev) rest
      ((k, t) :: r.1, r.2)
    else takeReady (n + 1) mine (k + 1) ev rest

/-- A task starts in an idle thread, whose bound results are written first if its TASKEND was marked (R171, R206). ARGS words beyond
VREGS are not kept, so that a later REGGROW finds new registers zero (R341; DESIGN CHOICE: log 117). -/
def State.startTask (s : State) (uid tid : Nat) (k : Task) : State :=
  let marked := ((s.thread? uid tid).bind (·.blocked)).any (·.marker.isSome)
  let s := if marked then s.updTeam uid fun t => t.flush s.lastResult tid else s
  let vregs := ((s.team? uid).map (·.vregs)).getD 0
  s.updThread uid tid fun th =>
    let args := (iota 0 (min 10 vregs)).zip k.args
    { th with
      v := args.foldl (fun v a => Sparse.put 0 v a.1 a.2) th.v
      taskArg := k.key, task := some k.setMask, pc := k.entry, blocked := none }

/-- The task former gathers ready tasks of one ENTRY into idle threads of a team: one wave (R171). -/
def State.gatherFor (s : State) (t : Team) (entry : DWord) : State :=
  let cl := t.pkCluster
  let ctx := s.ctxOf t
  let idle := sortBy (·.tid) (t.threads.filter t.idle)
  let mine := fun (k : Task) => k.cluster == cl && k.ctx == ctx && k.entry == entry
  let r := takeReady (min 32 idle.length) mine 0 (s.evBits cl ctx).toNat s.pool
  if r.1 = [] then s
  else
    let pairs := idle.zip r.1
    let tids := pairs.map fun p => p.1.tid
    let taken := r.1.map (·.1)
    let keep := ((iota 0 s.pool.length).zip s.pool).filter fun (m : Nat × Task) => !taken.contains m.1
    let s := { s with pool := keep.map fun (m : Nat × Task) => m.2 }.noteAct (cl / 32) [35, cl] 0
    let s := s.setEvBits cl ctx (BitVec.ofNat 256 r.2)
    let s := pairs.foldl (fun s p => s.startTask t.uid p.1.tid p.2.2) s
    let s := if r.1.any fun k => k.2.far then s.acquire .pk t else s
    s.addWave t.uid (packedLanes tids)

/-- A team on a core that can host a task of its context now. -/
def State.canHost (s : State) (t : Team) : Bool :=
  t.status == .resident && s.isTaskHost t && t.threads.any t.idle
    && (s.ctx? (s.ctxOf t)).any fun c => match c.status with
      | .running => true
      | .preempting .. => true
      | _ => false

/-- The team that a pooled task goes to if it is ready: of several, the first (DESIGN CHOICE: log 95; R171 says only one of them). -/
def State.hostOf (s : State) (k : Task) : Option Team :=
  if k.readyWith (s.evBits k.cluster k.ctx).toNat then
    s.teams.find? fun t => t.pkCluster == k.cluster && s.ctxOf t == k.ctx && s.canHost t
  else none

/-- The task former of a cluster forms one wave, for the first ready task of the pool that some team can host, if any (R170, R171). -/
def State.formWave (s : State) (cluster : Nat) : State :=
  match s.pool.findSome? fun k => if k.cluster = cluster then (s.hostOf k).map fun t => (t, k.entry) else none with
  | some x => s.gatherFor x.1 x.2
  | none => s

/-- The readiness evaluation of a cluster, once in a cycle, after the cycle's changes of event bits (R170, R332). -/
def State.gather (s : State) (cluster : Nat) : State :=
  if s.tooLate [17, cluster] 0 then s
  else ((s.formWave cluster).noteAct (cluster / 32) [17, cluster] 1).noteAct (cluster / 32) [3, cluster] 2

/-- A checked record goes to its pool or queue, or the way of a dead letter. In a full pool the task former takes first what it takes
in this cycle (R347). -/
def State.postRecord (s : State) (r : Staged) : Posted :=
  let s := if r.launch || s.roomFor r then s else s.gather r.cluster
  if s.roomFor r then .placed (s.enter r) 0 else s.deadLetter r

/-- The cause of an access failure from its REASON (R24). -/
def xcause (info : Nat) : Nat :=
  let r := info / 2 ^ 60
  if r < 7 then Cause.xlate else if r = 7 then Cause.polderExpired else if r = 13 then Cause.localRange
  else if r = 14 then Cause.courierFault else Cause.permission

/-- TRAPINFO of a record's read by a participant that fails with a cause (R23, R333). -/
def recordErr (cause : Nat) (x : Issue) (lt : Nat × Thread) : Option Nat :=
  let va := x.a lt 64
  if x.f.c ≠ .unused ∨ va % 128 ≠ 0 then none
  else match x.s.readVa x.team.tlb x.grid.ctx va 128 with
    | .ok _ => none
    | .error i => if xcause i = cause then some i else none

/-- The body after the read of a record from memory has passed its checks. -/
def recordChecked (body : Issue → State → State × Out) : Issue → State → State × Out :=
  unlessRaised Cause.xlate (recordErr Cause.xlate)
    (unlessRaised Cause.permission (recordErr Cause.permission)
      (unlessRaised Cause.polderExpired (recordErr Cause.polderExpired) body))

/-- The record's bytes for a participant. -/
def Issue.record (x : Issue) (lt : Nat × Thread) : List Byte :=
  match x.f.c with
  | .v i => (iota 0 32).flatMap fun k => toBytes 4 (lt.2.readV x.s (saltOf lt.1 3 0) (i.toNat + k))
  | _ => match x.s.readVa x.team.tlb x.grid.ctx (x.a lt 64) 128 with
    | .ok bs => bs
    | .error _ => []

/-- The thread's earlier stores to the record have performed (R333). -/
def Issue.recordReady (x : Issue) (s : State) : Bool :=
  x.f.c != .unused || x.parts.all fun lt =>
    x.ownDone s lt (x.a lt 64) 128

/-- Whether a context's read meets a poisoned sector. -/
def State.poisonedVa (s : State) (u : TlbUnit) (ctx va n : Nat) : Bool :=
  match s.translate u ctx va n .read with
  | .ok ps => ps.any fun p => s.poisoned p.addr p.count
  | .error _ => false

/-- The status of a record and its cluster operand, in order. -/
def Issue.postErr (x : Issue) (lt : Nat × Thread) : Option Nat :=
  if x.f.c = .unused ∧ x.a lt 64 % 128 ≠ 0 then some (statusWord 0x13 3)
  else
    let r := x.record lt
    if !entryOk (taskEntry r) then some (statusWord 0x13 1)
    else if 2 ≤ taskFlags r then some (statusWord 0x13 2)
    else if x.f.fn ≠ 1 ∧ 127 < x.b lt 32 then some (statusWord 0x14 0)
    else none

/-- A 32-bit result for one thread, outstanding. -/
def State.give (s : State) (uid tid : Nat) (d : Operand) (w val : Nat) : State := s.pendAll uid [(tid, operandWrites d w val)]

/-- A result for a participant of a wave: an S destination takes the lowest lane's. -/
def Issue.give (x : Issue) (lt : Nat × Thread) (w val : Nat) (s : State) : State := s.give x.team.uid lt.2.tid (x.dst lt) w val

/-- A participant's record is posted: its result, or its wait. -/
def Issue.post (x : Issue) (lt : Nat × Thread) (r : Staged) (s : State) : State :=
  match s.postRecord r with
  | .placed s w => x.give lt 32 w s
  | .full => x.block lt.2.tid (.post r none (x.dst lt)) s
  | .held info => x.block lt.2.tid (.post r (some info) (x.dst lt)) s

/-- TASKPOST of one participant. -/
def Issue.postOne (x : Issue) (s : State) (lt : Nat × Thread) : State :=
  match x.postErr lt with
  | some e => x.give lt 32 e s
  | none =>
    let ctx := x.grid.ctx
    if x.f.c = .unused ∧ s.poisonedVa x.team.tlb ctx (x.a lt 64) 128 then s.killPoisoned ctx (x.a lt 64)
    else
      let s := if x.f.c = .unused then s.demandVa x.team.tlb ctx (x.a lt 64) 128 else s
      let cluster := if x.f.fn = 1 then s.anyCluster ctx lt.1 else x.b lt 32
      x.post lt { cluster, ctx, gid := 0, launch := false, far := cluster != x.team.pkCluster, record := x.record lt } s

def taskpostBody (x : Issue) (s : State) : State × Out :=
  if !x.recordReady s then (s, .again)
  else afterRelease .pk (fun x s => (x.parts.foldl x.postOne s, .go)) x s

def execTaskpost (f : Fields) (s : State) := runWave 0xD7 f (recordChecked taskpostBody) s

/-- TASKEND in an ordinary team takes PRIVILEGE (R334). -/
def notTaskHost (x : Issue) (_ : Nat × Thread) : Option Nat := if x.grid.lrec.taskHost then none else some 0

/-- TASKEND of one participant: the SET of the task it runs, then it is idle. -/
def Issue.taskendOne (x : Issue) (s : State) (lt : Nat × Thread) : State :=
  let s := match lt.2.task with
    | some m => x.updEvents s (· ||| BitVec.ofNat 256 m)
    | none => s
  let s := s.updThread x.team.uid lt.2.tid fun th => { th with task := none, taskArg := 0 }
  x.block lt.2.tid .idle s

def execTaskend (f : Fields) (s : State) :=
  runWave 0xD8 f (unlessRaised Cause.privilege notTaskHost
    (afterRelease .cl fun x s => (x.parts.foldl x.taskendOne s, .go))) s

/-- The test of a waiting EVWAIT, after the readiness evaluation of its cluster (R332). -/
def State.settleEvent (s : State) (t : Team) (th : Thread) (w m : Nat) (any : Bool) (d : Operand) : State :=
  let word := evWord (s.evBits t.pkCluster (s.ctxOf t)) w
  if evDone word m any then (s.give t.uid th.tid d 64 word).wake t.uid th.tid
  else s

/-- EVWAIT of one participant: it goes on where its wait is over, and waits where it is not (R159, R332). -/
def Issue.evwaitOne (x : Issue) (s : State) (lt : Nat × Thread) : State :=
  let w := x.a lt 32 % 4
  let word := evWord (s.evBits x.team.pkCluster x.grid.ctx) w
  if evDone word (x.b lt 64) (x.f.fn == 1) then x.give lt 64 word s
  else x.block lt.2.tid (.event w (x.b lt 64) (x.f.fn == 1) (x.dst lt)) s

/-- EVWAIT: its test follows its cycle's readiness evaluation (R332). -/
def evwaitBody (x : Issue) (s : State) : State × Out := (x.parts.foldl x.evwaitOne (s.gather x.team.pkCluster), .go)

def execEvwait (f : Fields) (s : State) := runWave 0xD5 f evwaitBody s

/-! ## Sorting offices (R335, R336) -/

/-- An entry comes before another of its office and context. -/
def SofEntry.before (a b : SofEntry) : Bool := decide (a.key < b.key ∨ (a.key = b.key ∧ a.order < b.order))

/-- The rank of an entry. -/
def State.sofRank (s : State) (e : SofEntry) : Nat :=
  1 + (s.offices.filter fun x => x.office == e.office && x.ctx == e.ctx && x.before e).length

/-- SOFPUT of one participant. -/
def Issue.sofputOne (x : Issue) (s : State) (lt : Nat × Thread) : State :=
  let office := x.e lt 32 % 4
  let key := x.a lt 32
  if key = 2 ^ 32 - 1 then x.give lt 32 (statusWord 0x17 0) s
  else if 16384 ≤ (s.offices.filter (·.office == office)).length then x.give lt 32 (statusWord 0x16 0) s
  else
    let e : SofEntry := ⟨office, x.grid.ctx, key, x.b lt 64 + x.c lt 32 * 2 ^ 64, s.seq⟩
    x.give lt 32 0 ({ s with offices := s.offices ++ [e] }).tick

def execSofput (f : Fields) (s : State) :=
  runWave 0xD9 f (afterRelease .pk fun x s => (x.parts.foldl x.sofputOne s, .go)) s

/-- SOFGET of one participant: one of the entries of rank 64 or less, whichever the office chooses. -/
def Issue.sofgetOne (x : Issue) (s : State) (lt : Nat × Thread) : State :=
  let office := x.a lt 32 % 4
  let es := s.offices.filter fun e => e.office == office && e.ctx == x.grid.ctx && decide (s.sofRank e ≤ 64)
  match es[s.choose (saltOf lt.1 6 0) (max 1 es.length)]? with
  | some e => (x.give lt 128 (e.key + e.payload * 2 ^ 32) { s with offices := s.offices.filter (· != e) }).acquire .pk x.team
  | none => x.give lt 128 (2 ^ 32 - 1) s

def execSofget (f : Fields) (s : State) := runWave 0xDA f (plain fun x s => x.parts.foldl x.sofgetOne s) s

/-! ## LAUNCHDEP and JOIN (R339, R340) -/

def execLaunchdep (f : Fields) (s : State) :=
  runWave 0xE3 f (afterRelease .pk fun x s =>
    (s.updThreads x.team.uid (x.parts.map (·.2.tid)) fun th => { th with triggered := true }, .go)) s

def joinAlignErr (x : Issue) (lt : Nat × Thread) : Option Nat :=
  let va := x.a lt 64
  if va % 4 ≠ 0 then some (2 * 2 ^ 61 + va % 2 ^ 52) else none

def joinXlateErr (cause : Nat) (x : Issue) (lt : Nat × Thread) : Option Nat :=
  match x.s.readVa x.team.tlb x.grid.ctx (x.a lt 64) 4 with
  | .ok _ => none
  | .error i => if xcause i = cause then some i else none

/-- Whether a JOIN finds its word zero at the home slice; not before the thread's own stores to it have performed. -/
def State.joinZero (s : State) (t : Team) (tid va : Nat) : Bool :=
  storesDone s (.range va (va + 4)) .pk t.uid tid s.seq && !s.poisonedVa t.tlb (s.ctxOf t) va 4
    && match s.readVa t.tlb (s.ctxOf t) va 4 with
      | .error _ => false
      | .ok bs => ofBytes bs == 0

/-- JOIN of one participant: it goes on where its word is zero, and waits where it is not. -/
def Issue.joinOne (x : Issue) (s : State) (lt : Nat × Thread) : State :=
  let va := x.a lt 64
  let s := s.demandVa x.team.tlb x.grid.ctx va 4
  if s.joinZero x.team lt.2.tid va then s.acquire .pk x.team else x.block lt.2.tid (.join va) s

def joinBody (x : Issue) (s : State) : State × Out := (x.parts.foldl x.joinOne s, .go)

def execJoin (f : Fields) (s : State) :=
  runWave 0xE4 f (unlessRaised Cause.misalignedAtomic joinAlignErr
    (unlessRaised Cause.xlate (joinXlateErr Cause.xlate)
      (unlessRaised Cause.permission (joinXlateErr Cause.permission)
        (unlessRaised Cause.polderExpired (joinXlateErr Cause.polderExpired) joinBody)))) s

/-- A waiting JOIN reads its word at the home slice, each time with the translation and the lease as they stand: a read that fails
traps (R21, R23, R340). -/
def State.settleJoin (s : State) (t : Team) (th : Thread) (va : Nat) : State :=
  if !storesDone s (.range va (va + 4)) .pk t.uid th.tid s.seq then s
  else if s.poisonedVa t.tlb (s.ctxOf t) va 4 then s.killPoisoned (s.ctxOf t) va
  else match s.readVa t.tlb (s.ctxOf t) va 4 with
    | .error i => s.trapAlone t.uid th.tid (xcause i) i
    | .ok _ => if s.joinZero t th.tid va then (s.acquire .pk t).wake t.uid th.tid else s

end Sys2Proof.Machine
end

