-- ==== Sys2Proof/Machine/Parcels.lean ====
section
/-! DEFINITION. Parcels (R55 to R82) and polders (R83 to R92): their instructions, and admission by the PAC. -/

namespace Sys2Proof.Machine

/-! ## Sets of lines as ranges -/

/-- How many numbers a list of ranges (first, count) covers, from a number up, the ranges ordered by their first. -/
def coverFrom (lo : Nat) (l : List (Nat × Nat)) : Nat :=
  match l with
  | [] => 0
  | (a, n) :: rest =>
    let a' := max lo a
    let b := a + n
    if b ≤ a' then coverFrom lo rest else (b - a') + coverFrom b rest

def coverCount (l : List (Nat × Nat)) : Nat := coverFrom 0 (sortBy (·.1) l)

/-- The virtual pages of ranges of lines, as ranges. -/
def pageRanges (l : List (Nat × Nat)) : List (Nat × Nat) :=
  l.map fun x => (x.1 / 512, (x.1 + x.2 - 1) / 512 - x.1 / 512 + 1)

def Parcel.lineCount (p : Parcel) : Nat := coverCount p.extents

/-- Virtual pages of a parcel, in extent order. -/
def Parcel.vpages (p : Parcel) : List Nat := distinct ((pageRanges p.extents).flatMap fun r => iota r.1 r.2)

/-! ## The descriptor (R55, R56) -/

/-- The failing extent among those from number k on. -/
def extentErr (ro : Bool) (k : Nat) (l : List (Nat × Nat)) : Option Nat :=
  match l with
  | [] => none
  | (w0, w1) :: rest =>
    if w0 % 128 ≠ 0 ∨ 2 ^ 52 ≤ w0 ∨ 2 ^ 32 ≤ w1 ∨ w1 = 0 ∨ 2 ^ 52 < w0 + w1 * 128 ∨ (ro ∧ (w0 % 2 ^ 16 ≠ 0 ∨ w1 % 512 ≠ 0)) then
      some k
    else extentErr ro (k + 1) rest

/-- The extent words of a descriptor. -/
def descExtents (d : List Byte) (n : Nat) : List (Nat × Nat) :=
  (iota 0 n).map fun e => (field d (16 + 16 * e) 8, field d (24 + 16 * e) 8)

/-- The reason of BAD_EXTENT for a descriptor's bytes. -/
def descErr (d : List Byte) : Option Nat :=
  let h := field d 0 8
  let n := h % 16
  if 2 ^ 9 ≤ h ∨ bits h 4 4 ≠ 0 ∨ field d 8 8 ≠ 0 ∨ n = 0 ∨ 8 < n then some 255
  else extentErr (bit h 8) 0 (descExtents d n)

/-- Bytes of a descriptor at an address; the error is TRAPINFO. -/
def State.descRead (s : State) (u : TlbUnit) (ctx va : Nat) : Except Nat (List Byte) :=
  match s.readVa u ctx va 16 with
  | .error i => .error i
  | .ok h => s.readVa u ctx va (16 + 16 * (field h 0 8 % 16))

def pdeclTrap (cause : Nat) (x : Issue) (lt : Nat × Thread) : Option Nat :=
  let va := x.a lt 64
  if va % 16 ≠ 0 then none
  else match x.s.descRead x.team.tlb x.grid.ctx va with
    | .ok _ => none
    | .error i => if xcause i = cause then some i else none

/-- The status of R57, or none. -/
def State.declErr (s : State) (c : Context) (d : List Byte) : Option Nat :=
  match descErr d with
  | some r => some (statusWord 0x03 r)
  | none =>
    let ext := (descExtents d (field d 0 8 % 16)).map fun e => (e.1 / 128, e.2)
    let n := coverCount ext
    if c.pquota < n then some (statusWord 0x01 1)
    else if s.pinBudget * 131072 < n then some (statusWord 0x01 2)
    else if 8192 < coverCount (pageRanges ext) then some (statusWord 0x01 3)
    else if 4096 ≤ s.parcels.length then some (statusWord 0x02 0)
    else none

/-- PDECL of one participant. The identifier is one of those free (log 21). -/
def Issue.pdeclOne (x : Issue) (s : State) (lt : Nat × Thread) : State :=
  let va := x.a lt 64
  if va % 16 ≠ 0 then x.give lt 32 (statusWord 0x03 255) s
  else match s.descRead x.team.tlb x.grid.ctx va with
    | .error _ => s
    | .ok d =>
      if s.poisonedVa x.team.tlb x.grid.ctx va d.length then s.killPoisoned x.grid.ctx va
      else match s.declErr x.ctx d with
        | some w => x.give lt 32 w (s.demandVa x.team.tlb x.grid.ctx va d.length)
        | none =>
          let ids := (iota 0 4096).filter fun i => !s.parcels.any (·.id == i)
          let id := ids.getD (s.choose (saltOf lt.1 6 0) (max 1 ids.length)) 0
          let p : Parcel := {
            id, ctx := x.grid.ctx, ro := bit (field d 0 8) 8
            extents := (descExtents d (field d 0 8 % 16)).map fun e => (e.1 / 128, e.2) }
          x.give lt 32 id { s.demandVa x.team.tlb x.grid.ctx va d.length with parcels := s.parcels ++ [p] }

/-- The thread's stores to the descriptor have performed. -/
def pdeclReady (x : Issue) (s : State) (lt : Nat × Thread) : Bool :=
  let va := x.a lt 64
  va % 16 != 0 || (x.ownDone s lt va 16 && match s.descRead x.team.tlb x.grid.ctx va with
    | .ok d => x.ownDone s lt va d.length
    | .error _ => true)

def execPdecl (f : Fields) (s : State) :=
  runWave 0xA0 f (whenReady pdeclReady (unlessRaised Cause.xlate (pdeclTrap Cause.xlate)
    (unlessRaised Cause.permission (pdeclTrap Cause.permission)
      (unlessRaised Cause.polderExpired (pdeclTrap Cause.polderExpired)
        (plain fun x s => x.parts.foldl x.pdeclOne s))))) s

/-! ## Identifiers and requests (R59, R62, R63) -/

/-- A parcel that an identifier names for a context (R59). -/
def State.parcel? (s : State) (ctx id : Nat) : Option Parcel := s.parcels.find? fun p => p.id == id && p.ctx == ctx && !p.freed

def State.updParcel (s : State) (id : Nat) (f : Parcel → Parcel) : State :=
  { s with parcels := updWhere (·.id == id) f s.parcels }

/-- The parcels of a list of identifiers, in its order. -/
def State.parcelsOf (s : State) (ids : List Nat) : List Parcel := ids.filterMap fun i => s.parcels.find? (·.id == i)

/-- The position of the first bad operand (R58), from operands with their positions. -/
def State.badId (s : State) (ctx : Nat) (ops : List (Nat × Nat)) : Option Nat :=
  (ops.find? fun o => (s.parcel? ctx o.2).isNone).map (·.1)

/-- Identifiers by their positions; and those of PENTER, whose operands past the first name none by 0xFFFF_FFFF (R294). -/
def positions (ids : List Nat) : List (Nat × Nat) := (iota 0 ids.length).zip ids
def penterOperands (vals : List Nat) : List (Nat × Nat) := (positions vals).filter fun o => o.1 == 0 || o.2 != 2 ^ 32 - 1

/-- The size checks of R63 on the parcels of a request. -/
def State.sizeErr (s : State) (quota : Nat) (ids : List Nat) : Option Nat :=
  let ext := (s.parcelsOf ids).flatMap (·.extents)
  let n := coverCount ext
  if quota < n then some (statusWord 0x01 1)
  else if s.pinBudget * 131072 < n then some (statusWord 0x01 2)
  else if 8192 < coverCount (pageRanges ext) then some (statusWord 0x01 3)
  else none

/-- The checks of R63 on a request's operands: the status. -/
def State.requestErr (s : State) (ctx quota : Nat) (ops : List (Nat × Nat)) : Option Nat :=
  match s.badId ctx ops with
  | some k => some (statusWord 0x04 k)
  | none => s.sizeErr quota (distinct (ops.map (·.2)))

/-- The order of the queue: priority, then arrival (R70). -/
def State.queue (s : State) : List Request := sortBy (fun r => 7 - r.prio) (s.admission.filter (·.queued))

/-- A backfill: every parcel named is resident, and entered or named by the head (R72). -/
def State.backfills (s : State) (head r : Request) : Bool :=
  r.parcels.all fun i => s.parcels.any fun p => p.id == i && p.state == .resident && (decide (0 < p.entered) || head.parcels.contains i)

/-- A request is admitted: ENTERED rises, absent parcels fill with the translations kept for them (R70 step 5). -/
def State.admitOne (s : State) (r : Request) : State :=
  let up := fun (p : Parcel) =>
    let p := { p with entered := p.entered + 1 }
    if p.state = .absent then { p with state := .filling, pages := p.kept, kept := [] } else p
  { s with
    admission := s.admission.filter (·.uid != r.uid)
    parcels := updWhere (fun p => r.parcels.contains p.id) up s.parcels }

/-- A request that has passed R63 enters the queue: it may be a backfill at once (R72). -/
def State.queueUp (s : State) (uid ctx prio : Nat) (ops : List (Nat × Nat)) : State :=
  let r : Request :=
    { uid, queued := true, order := s.seq, operands := ops, ctx, prio, parcels := distinct (ops.map (·.2)) }
  let others := s.admission.filter fun (q : Request) => q.uid != uid
  let t := { s with admission := others ++ [r], seq := s.seq + 1 }.updTeam uid fun t => { t with rel := .asking r.parcels }
  match s.queue with
  | [] => t
  | head :: _ => if prio ≤ head.prio ∧ s.backfills head r then t.admitOne r else t

/-- Requests in the queue. -/
def State.queueLength (s : State) : Nat := (s.admission.filter (·.queued)).length

/-- A request by a team's first thread, or by a pre-entry: a status, or the state in which the team is asking. A team that finds
the queue full waits for room (R75). -/
def State.request (s : State) (c : Context) (uid : Nat) (ops : List (Nat × Nat)) : Except Nat State :=
  match s.requestErr c.num c.pquota ops with
  | some w => .error w
  | none =>
    if s.queueLength < 16384 ∧ s.admission.all (·.queued) then .ok (s.queueUp uid c.num c.cprio ops)
    else
      let ids := distinct (ops.map (·.2))
      let r : Request := { uid, queued := false, order := 0, operands := ops, ctx := c.num, prio := c.cprio, parcels := ids }
      .ok ({ s with admission := s.admission ++ [r] }.updTeam uid fun t => { t with rel := .asking ids })

/-- PENTER of one participant (R62). -/
def Issue.penterOne (x : Issue) (lt : Nat × Thread) (s : State) : State :=
  let uid := x.team.uid
  let tid := lt.2.tid
  let join := fun (s : State) => s.updThread uid tid fun th => { th with joined := true, left := false }
  match s.team? uid with
  | none => s
  | some t =>
    if lt.2.joined then x.give lt 32 (statusWord 0x05 0) s
    else match t.rel with
      | .asking _ => join (x.block tid (.penter (x.dst lt)) s)
      | .inside ids =>
        let s := (s.parcelsOf ids).foldl (fun s p => p.extents.foldl (fun s e =>
          s.rangeAcquire t.tlb t.pkCluster x.grid.ctx (e.1 * 128) ((e.1 + e.2) * 128)) s) s
        join (x.give lt 32 0 s)
      | .out =>
        match s.request x.ctx uid (penterOperands [x.a lt 32, x.b lt 32, x.c lt 32, x.e lt 32]) with
        | .error w => x.give lt 32 w s
        | .ok s => join (x.block tid (.penter (x.dst lt)) s)

def execPenter (f : Fields) (s : State) :=
  runWave 0xA1 f (plain fun x s => (sortBy (fun lt => lt.2.tid) x.parts).foldl (fun s lt => x.penterOne lt s) s) s

/-! ## Leaving (R65) -/

/-- A team leaves its parcels: ENTERED falls, flags are cleared; the head is to be tested again (R71). A leave comes first of the
PAC's events of a cycle (R77). -/
def State.leaveParcels (s : State) (uid : Nat) (ids : List Nat) : State :=
  let fall := fun (p : Parcel) =>
    { p with entered := p.entered - 1, idleSince := if p.entered ≤ 1 then s.now 0 else p.idleSince }
  let s := { s.takePlace 0 [22] (2 ^ 24) with parcels := updWhere (fun p => ids.contains p.id) fall s.parcels, pacDue := true }
  s.updTeam uid fun t =>
    { t with rel := .out, threads := t.threads.map fun th => { th with joined := false, left := false } }

/-- A team whose joined threads have all left, or exited, leaves. -/
def State.settleLeave (s : State) (t : Team) : State :=
  match t.rel with
  | .inside ids => if t.threads.all fun th => !th.joined || th.left then s.leaveParcels t.uid ids else s
  | _ => s

/-- A team all of whose threads have exited leaves its parcels, or withdraws its request (R64, R65). -/
def State.withdraw (s : State) (t : Team) : State :=
  match t.rel with
  | .out => s
  | .inside ids => s.leaveParcels t.uid ids
  | .asking ids =>
    if s.admission.any (·.uid == t.uid) then
      ({ s with admission := s.admission.filter (·.uid != t.uid) }).updTeam t.uid fun t => { t with rel := .out }
    else s.leaveParcels t.uid ids

/-- PLEAVE of one participant; an earlier lane's may have cleared its flag. -/
def Issue.pleaveOne (x : Issue) (s : State) (lt : Nat × Thread) : State :=
  if (s.thread? x.team.uid lt.2.tid).any (·.joined) then
    let s := (x.give lt 32 0 s).updThread x.team.uid lt.2.tid fun th => { th with left := true }
    match s.team? x.team.uid with
    | some t => s.settleLeave t
    | none => s
  else x.give lt 32 (statusWord 0x07 0) s

def execPleave (f : Fields) (s : State) := runWave 0xA2 f (plain fun x s => x.parts.foldl x.pleaveOne s) s

/-! ## PFREE and PSTAT (R60, R61) -/

def ParcelState.code : ParcelState → Nat
  | .absent => 1 | .filling => 2 | .resident => 3 | .evicting => 4

/-- Whether a request in the admission queue names a parcel; one that waits for room in the queue does not (R60, R75). -/
def State.requested (s : State) (id : Nat) : Bool := s.admission.any fun r => r.queued && r.parcels.contains id

/-- A parcel starts to be evicted. -/
def State.evict (s : State) (id : Nat) (freed : Bool) : State :=
  s.updParcel id fun p => { p with state := .evicting, freed := p.freed || freed }

def State.pfree (s : State) (p : Parcel) : State × Nat :=
  if 0 < p.entered ∨ p.state = .filling ∨ s.requested p.id then (s, statusWord 0x06 0)
  else match p.state with
    | .absent => ({ s with parcels := s.parcels.filter (·.id != p.id) }, 0)
    | _ => (s.evict p.id true, 0)

def Issue.pfreeOne (x : Issue) (s : State) (lt : Nat × Thread) : State :=
  match s.parcel? x.grid.ctx (x.a lt 32) with
  | none => x.give lt 32 (statusWord 0x04 0) s
  | some p => x.give lt 32 (s.pfree p).2 (s.pfree p).1

def execPfree (f : Fields) (s : State) := runWave 0xA3 f (plain fun x s => x.parts.foldl x.pfreeOne s) s

/-- PSTAT's word (R61). -/
def Parcel.word (p : Parcel) : Nat :=
  p.state.code * 2 ^ 60 + p.ro.toNat * 2 ^ 59 + p.entered % 2 ^ 16 * 2 ^ 40 + p.lineCount % 2 ^ 32

def execPstat (f : Fields) (s : State) :=
  runWave 0xA4 f (computes 64 fun x lt => match x.s.parcel? x.grid.ctx (x.a lt 32) with
    | some p => p.word
    | none => statusWord 0x04 0) s

/-! ## Accounting and admission (R69 to R77) -/

/-- The parcels that admission counts: FILLING and RESIDENT ones, and those whose fill waits for their eviction (R69, R82). -/
def State.pinnedParcels (s : State) : List Parcel :=
  s.parcels.filter fun p => p.pinned || (p.state == .evicting && decide (0 < p.entered))

/-- The lines that count against B: those that hold pinned ways, and those that parcels are to fill (R46, R69). -/
def State.pinClaims (s : State) : List Nat :=
  distinct (s.pinnedLines ++ s.pinnedParcels.flatMap fun p => p.linesBy p.pinnedPages)

/-- What admission counts, with a set of pinned parcels and a request's parcels u: the context's virtual lines, the pages, and
the ways of each set that u touches. -/
def State.counts (s : State) (ctx : Nat) (pinned u : List Parcel) (homes : List (Nat × Nat)) (ulines : List Nat) : List Nat :=
  let mine := (pinned.filter fun p => p.ctx == ctx) ++ u
  let pages := distinct ((pinned ++ u).flatMap fun p => p.vpages.map fun v => (p.ctx, v))
  let lines := distinct (pinned.flatMap (fun p => p.linesBy p.pinnedPages)
    ++ (s.polders.flatMap fun q => iota (2 ^ 41 + q.id * 2 ^ 21) q.lines) ++ ulines)
  coverCount (mine.flatMap (·.extents)) :: pages.length :: homes.map fun h => (lines.filter fun l => lineHome l = h).length

/-- Whether counts are all within their limits. -/
def within (counts limits : List Nat) : Bool := (counts.zip limits).all fun x => decide (x.1 ≤ x.2)

/-- Whether some count that fails is lowered. -/
def helps (old new limits : List Nat) : Bool := ((old.zip new).zip limits).any fun x => decide (x.2 < x.1.1 ∧ x.1.2 < x.1.1)

/-- The victims taken in order until the counts fit: none if they never do (R70 step 4). -/
def victims (counts : List Parcel → List Nat) (limits : List Nat) (pinned cands : List Parcel) : Option (List Nat) :=
  if within (counts pinned) limits then some []
  else match cands with
    | [] => none
    | v :: rest =>
      let fewer := pinned.filter (·.id != v.id)
      if helps (counts pinned) (counts fewer) limits then (victims counts limits fewer rest).map (v.id :: ·)
      else victims counts limits pinned rest

/-- Evictable parcels, oldest first (R69, R70). -/
def State.evictable (s : State) : List Parcel :=
  sortBy (fun p => p.idleSince * 4096 + p.id)
    (s.parcels.filter fun p => p.state == .resident && p.entered == 0 && !s.requested p.id)

/-- The pinned translation of a context's page, which is not walked again (R18, R19). -/
def State.pinnedLeaf (s : State) (ctx v : Nat) : Option Leaf :=
  ((s.parcels.filter fun p => p.ctx == ctx).flatMap Parcel.pinnedPages).findSome? fun g =>
    if g.1 == v || (g.2.big && g.1 / 8192 == v / 8192) then some g.2 else none

/-- The translation of one page of a head's parcels: a pinned one, one kept for the head, or a walk's (R70 step 1); or TRAPINFO. -/
def State.headLeaf (s : State) (c : Context) (kept : List (Nat × Leaf)) (v : Nat) : Except Nat Leaf :=
  match s.pinnedLeaf c.num v, kept.find? (·.1 == v) with
  | some l, _ => .ok l
  | none, some g => .ok g.2
  | none, none =>
    let va := v * 2 ^ 16
    if bit c.xroot.toNat 0 = false then .error (xinfo 6 .read 3 va)
    else match s.walk 0 c.num c.xroot.toNat va with
      | .error e => .error (xinfo e.reason .read e.level va)
      | .ok l => if l.rd then .ok l else .error (xinfo 8 .read l.level va)

/-- The translation of a head's pages (R19), or TRAPINFO of the first that fails. DESIGN CHOICE: a page of a polder window (PK = 1)
is taken as any other, and its lines are the polder's (log 86). -/
def State.walkPages (s : State) (c : Context) (kept : List (Nat × Leaf)) (vs : List Nat) : Except Nat (List (Nat × Leaf)) :=
  match vs with
  | [] => .ok []
  | v :: rest =>
    match s.headLeaf c kept v with
    | .error i => .error i
    | .ok l => match s.walkPages c kept rest with
      | .error i => .error i
      | .ok ps => .ok ((v, l) :: ps)

/-- A request ends without entry: its team is out, and each waiting thread has its outcome (R64, R351). -/
def State.endRequest (s : State) (uid : Nat) (f : Wait → Wait) : State :=
  let s := { s with admission := s.admission.filter (·.uid != uid) }
  s.updTeam uid fun t => { t with
    rel := .out
    threads := t.threads.map fun th =>
      { th with joined := false, left := false, blocked := th.blocked.map fun b => { b with wait := f b.wait } } }

/-- A request ends with a status. -/
def State.endStatus (s : State) (uid w : Nat) : State :=
  s.endRequest uid fun
    | .penter d => .penterDone d w
    | .preenter => .preenterDone w
    | k => k

/-- A request ends because a page fails: UNMAPPED for a pre-entry. -/
def State.endUnmapped (s : State) (uid info : Nat) : State :=
  let c := xcause info
  s.endRequest uid fun
    | .penter _ => .penterTrap c info
    | .preenter => .preenterDone (statusWord 0x1B (if c = Cause.permission then 0x11 else 0x10))
    | k => k

/-- The requests behind the head that are backfills are admitted, in queue order (R72). -/
def State.backfillAll (s : State) (head : Request) (rs : List Request) : State :=
  match rs with
  | [] => s
  | r :: rest => State.backfillAll (if s.backfills head r then s.admitOne r else s) head rest

/-- A page's translation is pinned in the TLBs of the four dies, unless it is already; it takes the place of unpinned entries there
(R18, R78). -/
def State.pinPage (s : State) (ctx : Nat) (g : Nat × Leaf) : State :=
  if (s.pinnedLeaf ctx g.1).isSome then s
  else
    let va := g.1 * 2 ^ 16
    let entries := (iota 0 4).map fun die =>
      (⟨.die die, ctx, g.2.big, pageOf g.2.big va, g.2.pfn, g.2.rd, g.2.wr, g.2.ex, g.2.kind, g.2.pk, g.2.nl⟩ : TlbEntry)
    { s with tlb := (s.tlb.filter fun e => !(e.unit == .die (tlbDie e.unit) && e.ctx == ctx && e.page == pageOf e.big va)) ++ entries }

/-- The parcels that a request names, in the order of its operands (DESIGN CHOICE: log 85), with the translations that the PAC keeps
for them; or TRAPINFO of a page that fails. -/
def State.headParcels (s : State) (r : Request) (c : Context) : Except Nat (List Parcel) :=
  let u := s.parcelsOf r.parcels
  let fresh := fun (p : Parcel) => p.state == .absent || (p.state == .evicting && p.entered == 0)
  match s.walkPages c (u.flatMap (·.kept)) (distinct ((u.filter fresh).flatMap Parcel.vpages)) with
  | .error info => .error info
  | .ok walked => .ok (u.map fun p => if fresh p then { p with kept := walked.filter fun g => p.vpages.contains g.1 } else p)

/-- The lines of a request's parcel: those that its fill takes, or has (R82). -/
def Parcel.headLines (p : Parcel) : List Nat := p.linesBy (if p.pinned then p.pages else p.kept)

/-- Translations are kept for the head only: a new head begins with none (R19, R70 step 1). -/
def State.dropKept (s : State) : State :=
  { s with parcels := updWhere (fun p => p.entered == 0) (fun p => { p with kept := [] }) s.parcels }

/-- The room that a head's parcels need: the victims to take, in order, if it fits (R70 steps 3 and 4). -/
def State.headRoom (s : State) (r : Request) (c : Context) (u : List Parcel) (homes : List (Nat × Nat)) (ulines : List Nat) :
    Option (List Nat) :=
  victims (fun ps => s.counts r.ctx ps u homes ulines) (c.pquota :: 8192 :: homes.map fun _ => s.pinBudget)
    s.pinnedParcels s.evictable

/-- The head is admitted with its victims (R70 step 5). -/
def State.admitHead (s : State) (r : Request) (u : List Parcel) (vs : List Nat) : State :=
  let s := vs.foldl (fun s v => s.evict v false) s
  let pages := u.flatMap fun p => if p.pinned then [] else p.kept
  (pages.foldl (fun s g => s.pinPage r.ctx g) s).admitOne r

/-- The test of the head (R70). -/
def State.testHead (s : State) (r : Request) (c : Context) : State :=
  match s.headParcels r c with
  | .error info => s.endUnmapped r.uid info
  | .ok u =>
    let s := u.foldl (fun s q => s.updParcel q.id fun p => { p with kept := q.kept }) s
    let ulines := distinct (u.flatMap Parcel.headLines)
    let homes := distinct (ulines.map lineHome)
    if homes.any fun h => s.pinBudget < (ulines.filter fun l => lineHome l = h).length then s.endStatus r.uid (statusWord 0x01 4)
    else match s.headRoom r c u homes ulines with
      | none => s
      | some vs => s.admitHead r u vs

/-- The requests that wait for room in the queue enter it while there is some, if they pass R63 then (R75, R77): the one that has
waited longest first (DESIGN CHOICE: log 116). -/
def State.enqueue (s : State) (rs : List Request) : State :=
  match rs with
  | [] => s
  | r :: rest =>
    if s.queueLength < 16384 then
      State.enqueue (match s.requestErr r.ctx (((s.ctx? r.ctx).map (·.pquota)).getD 0) r.operands with
        | some w => s.endStatus r.uid w
        | none => s.queueUp r.uid r.ctx r.prio r.operands) rest
    else s

/-- Requests that no longer pass R63, as when B has fallen, end (R70). -/
def State.recheck (s : State) (rs : List Request) : State :=
  match rs with
  | [] => s
  | r :: rest =>
    let quota := ((s.ctx? r.ctx).map (·.pquota)).getD 0
    State.recheck (match s.sizeErr quota r.parcels with
      | some w => s.endStatus r.uid w
      | none => s) rest

/-- A team whose request has been admitted, and whose parcels are all resident, is in (R64). -/
def State.enterTeam (s : State) (t : Team) : State :=
  match t.rel with
  | .asking ids =>
    if (s.admission.any (·.uid == t.uid)) || !(s.parcelsOf ids).all (·.state == .resident) then s
    else s.updTeam t.uid fun t => { t with
      rel := .inside ids
      threads := t.threads.map fun th => { th with
        joined := th.joined || th.wait? == some .preenter
        blocked := th.blocked.map fun b => { b with wait := match b.wait with
          | .penter d => .penterDone d 0
          | .preenter => .preenterDone 0
          | k => k } } }
  | _ => s

/-- The tests of one cycle: backfills, then the head (R72, R77 step 7). -/
def State.testQueue (s : State) (head : Request) (rest : List Request) : State :=
  let s := (if s.pacHead = head.order then s else s.dropKept).backfillAll head rest
  let s := match s.ctx? head.ctx with
    | some c => s.testHead head c
    | none => s
  { s with pacDue := false, pacHead := head.order }

/-- The PAC's tests as a cycle ends, after its events: a new head is tested, and a waiting one after an event of R71. -/
def State.settlePac (s : State) : State :=
  let s := (s.recheck s.queue).enqueue (s.admission.filter fun r => !r.queued)
  let s := match s.queue with
    | [] => s
    | head :: rest => if s.pacDue || s.pacHead != head.order then s.testQueue head rest else s
  s.teams.foldl State.enterTeam s

/-- Waits in PENTER, or before a first instruction, that are over (R64, R351). -/
def State.settlePenter (s : State) (t : Team) : State :=
  let ids := match t.rel with
    | .inside ids => ids
    | _ => []
  let acq := fun (s : State) => (s.parcelsOf ids).foldl (fun s p => p.extents.foldl (fun s e =>
    s.rangeAcquire t.tlb t.pkCluster (s.ctxOf t) (e.1 * 128) ((e.1 + e.2) * 128)) s) s
  let s := t.threads.foldl (fun s th => match th.wait? with
    | some (.penterDone d v) => ((acq s).give t.uid th.tid d 32 v).wake t.uid th.tid
    | _ => s) s
  let trapped := t.threads.filter fun th => match th.wait? with
    | some (.penterTrap ..) => true
    | _ => false
  let infoOf := fun (th : Thread) => match th.wait? with
    | some (.penterTrap _ i) => i
    | _ => 0
  let causeOf := fun (th : Thread) => match th.wait? with
    | some (.penterTrap c _) => c
    | _ => 0
  let s := (distinct (trapped.map fun th => (th.tid / 32, th.pc, causeOf th))).foldl (fun s k =>
    let ths := trapped.filter fun th => (th.tid / 32, th.pc, causeOf th) = k
    s.trapGroup t.uid (ths.map (·.tid)) k.2.1 k.2.2 (ths.map fun th => (th.tid, infoOf th))) s
  let started := t.threads.filter fun th => match th.wait? with
    | some (.preenterDone _) => true
    | _ => false
  if started = [] then s
  else
    let put := fun (th : Thread) => match th.wait? with
      | some (.preenterDone v) => { th with v := Sparse.put 0 th.v 0 (BitVec.ofNat 32 v) }
      | _ => th
    ((acq s).updThreads t.uid (started.map (·.tid)) put).releaseHome t.uid started

/-! ## Steps of the PAC (R78, R81, R82) -/

/-- Whether each line of a filling parcel finds a way within B: one that is being evicted frees its ways first (R46, R78, R82). -/
def State.waysFree (s : State) (p : Parcel) : Bool :=
  let lines := distinct (s.pinnedLines ++ p.lines)
  p.lines.all fun l => decide ((lines.filter fun k => lineHome k = lineHome l).length ≤ s.pinBudget)

/-- A parcel whose eviction starts as it becomes RESIDENT: its context has left (R80, R82). -/
def Parcel.filled (p : Parcel) : Parcel := { p with state := if p.freed then .evicting else .resident }

/-- FILL_COMPLETE: the last line and page are pinned. Each held line is recalled before it is pinned (R52). -/
def State.fillComplete (s : State) (id : Nat) : State :=
  match s.parcels.find? (·.id == id) with
  | none => s
  | some p =>
    if p.state = .filling ∧ s.waysFree p then
      let s := { s.updParcel id Parcel.filled with pacDue := true }
      p.lines.foldl (fun s l => ((s.forceRecall l).pinL2 l).markL2 l 15 0) s
    else s

/-- EVICTION_COMPLETE: lines that no other parcel pins are written back and unpinned. A parcel that was named meanwhile fills. -/
def State.evictionComplete (s : State) (id : Nat) : State :=
  match s.parcels.find? (·.id == id) with
  | none => s
  | some p =>
    if p.state = .evicting then
      let rest := s.parcels.filter (·.id != id)
      let s := { s with parcels := rest, pacDue := true }
      let free := p.lines.filter fun l => !s.pinnedLines.contains l
      let s := { s with l2 := updWhere (fun l => free.contains l.line) (fun l => { l with dirty := 0 }) s.l2 }
      if p.freed then s
      else if 0 < p.entered then { s with parcels := rest ++ [{ p with state := .filling, pages := p.kept, kept := [] }] }
      else { s with parcels := rest ++ [{ p with state := .absent, pages := [] }] }
    else s

/-! ## Polders (R83 to R91) -/

def State.polder? (s : State) (ctx id : Nat) : Option Polder := s.polders.find? fun p => p.id == id && p.ctx == ctx

/-- Pages of a polder of n lines. -/
def polderPages (n : Nat) : Nat := (n + 511) / 512

/-- The lowest run of k free pages in the window area, as a page number from its base. -/
def State.windowRun (s : State) (c : Context) (k : Nat) : Option Nat :=
  let mine := s.polders.filter (·.ctx == c.num)
  (iota 0 (c.pwLen * 8192)).find? fun a => decide (a + k ≤ c.pwLen * 8192) &&
    mine.all fun q => decide (a + k ≤ q.page ∨ q.page + polderPages q.lines ≤ a)

/-- The address of a window page's leaf entry, where its middle entry is a valid table pointer. -/
def State.leafAddr (s : State) (c : Context) (va : Nat) : Option Nat :=
  let root := Memory.num s.mem (bits c.xroot.toNat 13 35 * 2 ^ 13 + bits va 42 10 * 8) 8
  if bit c.xroot.toNat 0 = false ∨ (entryErr root).isSome ∨ bit root 1 ∨ paLimit ≤ entryPa root then none
  else
    let mid := Memory.num s.mem (entryPa root + bits va 29 13 * 8) 8
    if (entryErr mid).isSome ∨ bit mid 1 ∨ paLimit ≤ entryPa mid then none
    else some (entryPa mid + bits va 16 13 * 8)

/-- A polder leaf entry (R87): V, T, Rd, W, PK, and the identifier and page index in PFN. -/
def polderLeaf (id k : Nat) : Nat := 0x8F + k * 2 ^ 16 + id * 2 ^ 28

/-- The status of LEASE (R86), or the victims and the window run. -/
def State.leaseCheck (s : State) (c : Context) (n life : Nat) : Except Nat (Nat × Nat × List Nat) :=
  let word := fun (code reason : Nat) => 2 ^ 63 + reason * 256 + code
  let held := ((s.polders.filter (·.ctx == c.num)).map (·.lines)).sum
  if n = 0 ∨ 2097152 < n then .error (word 0x0A 1)
  else if life = 0 ∨ 2 ^ 40 ≤ life then .error (word 0x0A 2)
  else if c.lquota < held + n then .error (word 0x08 1)
  else if 4096 ≤ s.polders.length then .error (word 0x02 0)
  else
    let id := firstFree (s.polders.map (·.id)) 0
    match s.windowRun c (polderPages n) with
    | none => .error (word 0x09 0)
    | some a =>
      if (iota a (polderPages n)).any fun k => (s.leafAddr c (c.pwBase.toNat + k * 2 ^ 16)).isNone then .error (word 0x0A 3)
      else
        let ulines := iota (2 ^ 41 + id * 2 ^ 21) n
        let homes := distinct (ulines.map lineHome)
        let ways := fun (ps : List Parcel) => (s.counts c.num ps [] homes ulines).drop 2
        match victims ways (homes.map fun _ => s.pinBudget) s.pinnedParcels s.evictable with
        | none => .error (word 0x08 2)
        | some vs => .ok (id, a, vs)

/-- A polder's lines leave the home slices, and their bytes and poison with them. -/
def State.discardPolder (s : State) (id : Nat) : State :=
  let base := 2 ^ 48 + id * 2 ^ 28
  { s with
    ending := s.ending.filter (·.id != id)
    mem := Memory.clear s.mem base (base + 2 ^ 28)
    poison := s.poison.filter fun k => decide (k * 32 < base ∨ base + 2 ^ 28 ≤ k * 32)
    l2 := s.l2.filter fun l => decide (l.line < base / 128 ∨ (base + 2 ^ 28) / 128 ≤ l.line) }

/-- A lease is granted (R87): victims are evicted, its lines are pinned and zero, its leaf entries are written, and every stale
translation goes, a parcel's too (log 86). -/
def State.leaseGrant (s : State) (c : Context) (die n life id a : Nat) (vs : List Nat) : State :=
  let s := vs.foldl (fun s v => s.evict v false) s
  let s := ((s.parcels.filter (·.state == .evicting)).map (·.id)).foldl State.evictionComplete s
  let q : Polder := { id, ctx := c.num, lines := n, die, start := s.now die, life, page := a }
  let s := { s.discardPolder id with polders := s.polders ++ [q] }
  let s := (iota (2 ^ 41 + id * 2 ^ 21) n).foldl (fun s l => (s.pinL2 l).markL2 l 15 0) s
  let s := (iota 0 (polderPages n)).foldl (fun s k =>
    match s.leafAddr c (c.pwBase.toNat + (a + k) * 2 ^ 16) with
    | some p => s.homeWrite (cellsAt p (toBytes 8 (polderLeaf id k)))
    | none => s) s
  let lo := c.pwBase.toNat / 2 ^ 16 + a
  let old := fun (e : TlbEntry) => e.ctx == c.num &&
    (if e.big then decide (e.page * 8192 < lo + polderPages n ∧ lo < (e.page + 1) * 8192)
     else decide (lo ≤ e.page ∧ e.page < lo + polderPages n))
  let s := { s with tlb := s.tlb.filter (fun e => !old e) }
  s.updCtx c.num fun c => { c with windowLeaves := c.windowLeaves ++ (iota lo (polderPages n)) }

/-- LEASE of one participant. -/
def Issue.leaseOne (x : Issue) (s : State) (lt : Nat × Thread) : State :=
  match s.leaseCheck x.ctx (x.a lt 32) (x.b lt 64) with
  | .error w => x.give lt 64 w s
  | .ok (id, a, vs) =>
    x.give lt 64 (x.ctx.pwBase.toNat + a * 2 ^ 16 + id) (s.leaseGrant x.ctx x.team.die (x.a lt 32) (x.b lt 64) id a vs)

def execLease (f : Fields) (s : State) := runWave 0xA6 f (plain fun x s => x.parts.foldl x.leaseOne s) s

/-- A lease ends at the PAC (R90): its identifier, window and lines are free, and the home slices apply its end from now on. -/
def State.endLease (s : State) (p : Polder) : State :=
  { s with
    polders := s.polders.filter (·.id != p.id)
    ending := s.ending.filter (·.id != p.id) ++ [{ id := p.id, ctx := p.ctx, lines := p.lines }]
    l2 := s.l2.filter fun l => decide (l.line < 2 ^ 41 + p.id * 2 ^ 21 ∨ 2 ^ 41 + (p.id + 1) * 2 ^ 21 ≤ l.line)
    pacDue := true }

/-- A home slice applies the end of a lease; with the last one, nothing of the polder is left. -/
def State.endSlice (s : State) (id slice : Nat) : State :=
  match s.ending.find? (·.id == id) with
  | none => s
  | some e =>
    if (iota 0 256).all fun k => k == slice || e.applied.contains k then s.discardPolder id
    else { s with ending := updWhere (·.id == id) (fun e => { e with applied := slice :: e.applied }) s.ending }

def Issue.unleaseOne (x : Issue) (s : State) (lt : Nat × Thread) : State :=
  match s.polder? x.grid.ctx (x.a lt 32) with
  | none => x.give lt 32 (statusWord 0x0B 0) s
  | some p => x.give lt 32 0 (s.endLease p)

def execUnlease (f : Fields) (s : State) := runWave 0xA7 f (plain fun x s => x.parts.foldl x.unleaseOne s) s

/-- Whether a lease's time has come: its end is applied in this cycle, after the UNLEASEs (R77, R90). -/
def State.leaseDue (s : State) (p : Polder) : Bool := decide (p.start + p.life ≤ s.now p.die)

/-- LSTAT's word (R88). -/
def State.lstat (s : State) (p : Polder) : Nat :=
  min (p.start + p.life - s.now p.die) (2 ^ 41 - 1) * 2 ^ 22 + p.lines

def execLstat (f : Fields) (s : State) :=
  runWave 0xA8 f (computes 64 fun x lt => match x.s.polder? x.grid.ctx (x.a lt 32) with
    | some p => if x.s.leaseDue p then statusWord 0x0B 0 else x.s.lstat p
    | none => statusWord 0x0B 0) s

/-- LEASE_EXPIRY: at the first cycle in which CYCLES of the issuing die reaches start + L. -/
def State.leaseExpiry (s : State) (id : Nat) : State :=
  match s.polders.find? (·.id == id) with
  | some p => if s.leaseDue p then s.endLease p else s
  | none => s

/-- Every lease whose time has come ends, as the cycle in which it has ends: an UNLEASE of that cycle ends it too (R90, R92). -/
def State.expireDue (s : State) : State := (s.polders.map (·.id)).foldl State.leaseExpiry s

/-- The leases that ended in a cycle that has passed. -/
def State.expirePassed (s : State) : State :=
  ((s.polders.filter fun p => decide (p.start + p.life < s.now p.die)).map (·.id)).foldl State.leaseExpiry s

end Sys2Proof.Machine
end

