-- ==== Sys2Proof/Machine/Slots.lean ====
section
/-! DEFINITION. Slot rings (R107 to R110, R303), guard slots (R99 to R102, R304), and the embargo table (R103 to R106, R305). -/

namespace Sys2Proof.Machine

/-! ## Rings (R107) -/

/-- A word of local memory. -/
def Team.locWord (t : Team) (a : Nat) : Nat := ofBytes (t.locBytes a 4)

/-- Ranges that share no byte. -/
def apart (a n b m : Nat) : Bool := decide (a + n ≤ b ∨ b + m ≤ a)

/-- The ring whose header is at a local offset; none where the header breaks R107. -/
def Team.ring? (t : Team) (hdr : Nat) : Option Ring :=
  if hdr % 16 ≠ 0 ∨ t.localSize < hdr + 32 then none
  else
    let r : Ring := ⟨t.locWord hdr, t.locWord (hdr + 4), t.locWord (hdr + 8), t.locWord (hdr + 12)⟩
    let size := r.nslots * r.slotBytes
    if r.data % 128 = 0 ∧ r.slotBytes % 16 = 0 ∧ 16 ≤ r.slotBytes ∧ r.slotBytes ≤ 2 ^ 20
        ∧ 2 ≤ r.nslots ∧ r.nslots ≤ 256 ∧ 2 ^ r.nslots.log2 = r.nslots ∧ r.tags % 4 = 0
        ∧ t.locWord (hdr + 20) = 0 ∧ t.locWord (hdr + 24) = 0 ∧ t.locWord (hdr + 28) = 0
        ∧ r.data + size ≤ t.localSize ∧ r.tags + 4 * r.nslots ≤ t.localSize
        ∧ apart hdr 32 r.data size ∧ apart hdr 32 r.tags (4 * r.nslots) ∧ apart r.data size r.tags (4 * r.nslots) then some r
    else none

/-- The slot index and the expected lap of a slot number. -/
def Ring.index (r : Ring) (slot : Nat) : Nat := slot % r.nslots
def Ring.parity (r : Ring) (slot : Nat) : Nat := slot / r.nslots % 2
def Ring.tagAt (r : Ring) (slot : Nat) : Nat := r.tags + 4 * r.index slot
def Ring.slotAt (r : Ring) (slot : Nat) : Nat := r.data + r.index slot * r.slotBytes

/-! ## Tags (R108) -/

def tagWord (remain lap state : Nat) : Nat := remain * 256 + lap * 4 + state
def tagState (tag : Nat) : Nat := tag % 4
def tagLap (tag : Nat) : Nat := tag / 4 % 2
def tagRemain (tag : Nat) : Nat := tag / 256

/-- A slot instruction. -/
inductive SlotOp where
  | res (count : Nat)
  | take
  | done
  | fill
  deriving DecidableEq, Repr

/-- What a slot instruction does to a tag whose slot has an expected lap: a status, a new tag, or nothing yet (R108). -/
def SlotOp.next (o : SlotOp) (slotBytes parity tag : Nat) : Option (Nat ⊕ Nat) :=
  let laps := tagLap tag = parity
  match o with
  | .res n =>
    if n = 0 ∨ slotBytes < n then some (.inl 0x12)
    else if tagState tag = 0 ∧ laps then some (.inr (tagWord n parity 1)) else none
  | .take => if tagState tag = 2 ∧ laps then some (.inr (tagWord 0 parity 3)) else none
  | .done => if tagState tag = 3 ∧ laps then some (.inr (tagWord 0 (1 - parity) 0)) else some (.inl 0x11)
  | .fill => if tagState tag = 1 ∧ laps then some (.inr (tagWord 0 parity 2)) else some (.inl 0x11)

/-- A slot instruction on a team's local memory: the team after and the result word; none while it has to wait. -/
def Team.slotOp (t : Team) (handle : Nat) (o : SlotOp) : Option (Team × Nat) :=
  match t.ring? (handle % 2 ^ 32) with
  | none => some (t, statusWord 0x10 0)
  | some r =>
    let slot := handle / 2 ^ 32
    let a := r.tagAt slot
    match o.next r.slotBytes (r.parity slot) (t.locWord a) with
    | none => none
    | some (.inl e) => some (t, statusWord e 0)
    | some (.inr tag) => some (t.locWrite (cellsAt a (toBytes 4 tag)), tag)

/-- One participant's slot instruction; `wait` is its wait. -/
def Issue.slotOne (x : Issue) (o : Nat × Thread → SlotOp) (wait : Nat × Thread → Wait) (s : State) (lt : Nat × Thread) : State :=
  match s.team? x.team.uid with
  | none => s
  | some t =>
    match t.slotOp (x.a lt 64) (o lt) with
    | some r => x.give lt 32 r.2 (s.updTeam x.team.uid fun _ => r.1)
    | none => x.block lt.2.tid (wait lt) s

def slotBody (o : Issue → Nat × Thread → SlotOp) (wait : Issue → Nat × Thread → Wait) (x : Issue) (s : State) : State × Out :=
  (x.parts.foldl (x.slotOne (o x) (wait x)) s, .go)

def execSlotres (f : Fields) (s : State) :=
  runWave 0xB1 f (slotBody (fun x lt => .res (x.b lt 32)) fun x lt => .slotres (x.a lt 64) (x.b lt 32) (x.dst lt)) s
def execSlottake (f : Fields) (s : State) :=
  runWave 0xB2 f (slotBody (fun _ _ => .take) fun x lt => .slottake (x.a lt 64) (x.dst lt)) s
def execSlotdone (f : Fields) (s : State) :=
  runWave 0xB3 f (afterRelease .tm (slotBody (fun _ _ => .done) fun _ _ => .idle)) s
def execSlotfill (f : Fields) (s : State) :=
  runWave 0xB5 f (afterRelease .tm (slotBody (fun _ _ => .fill) fun _ _ => .idle)) s

/-- SLOTPEEK: the tag, or BAD_RING. -/
def execSlotpeek (f : Fields) (s : State) :=
  runWave 0xB4 f (computes 32 fun x lt => match x.team.ring? (x.a lt 64 % 2 ^ 32) with
    | some r => x.team.locWord (r.tagAt (x.a lt 64 / 2 ^ 32))
    | none => statusWord 0x10 0) s

/-- SLOTINIT: every tag and RESV zero. -/
def Issue.slotinitOne (x : Issue) (s : State) (lt : Nat × Thread) : State :=
  let hdr := x.a lt 64 % 2 ^ 32
  match (s.team? x.team.uid).bind fun t => t.ring? hdr with
  | none => x.give lt 32 (statusWord 0x10 0) s
  | some r => x.give lt 32 0 (s.updTeam x.team.uid fun t =>
      t.locWrite (cellsAt r.tags (toBytes (4 * r.nslots) 0) ++ cellsAt (hdr + 16) (toBytes 4 0)))

def execSlotinit (f : Fields) (s : State) := runWave 0xB0 f (plain fun x s => x.parts.foldl x.slotinitOne s) s

/-- A thread that waits in SLOTRES or SLOTTAKE (R109). -/
def State.settleSlot (s : State) (uid : Nat) (th : Thread) (handle : Nat) (o : SlotOp) (d : Operand) : State :=
  match (s.team? uid).bind fun t => t.slotOp handle o with
  | some r => ((s.updTeam uid fun _ => r.1).give uid th.tid d 32 r.2).wake uid th.tid
  | none => s

/-! ## Guard slots (R304) -/

def guardIndexErr (x : Issue) (lt : Nat × Thread) : Option Nat :=
  let n := x.a lt 32
  if x.team.guards.length ≤ n then some (2 ^ 62 + n % 512) else none

/-- The place of a thread's guard write among those of its cycle: by WAVEID, and then by ISSUELANE (R102). -/
def guardRank (lt : Nat × Thread) : Nat := lt.2.tid / 32 * 32 + lt.1

/-- One participant's guard write: nothing, where a write of a lower place in this cycle has been to the slot (R102). -/
def Issue.guardOne (x : Issue) (val : Nat × Thread → GuardSlot) (s : State) (lt : Nat × Thread) : State :=
  let n := x.a lt 32
  if s.guardWrites.any fun w => w.1 == x.team.uid && w.2.1 == n && decide (w.2.2 < guardRank lt) then s
  else
    { s.updTeam x.team.uid fun t => { t with guards := t.guards.set n (val lt) } with
      guardWrites := (x.team.uid, n, guardRank lt) :: s.guardWrites }

/-- Writes of several threads in one cycle: the one of the lowest WAVEID stands, and of its lowest lane (R102). -/
def guardBody (val : Issue → Nat × Thread → GuardSlot) (x : Issue) (s : State) : State × Out :=
  (x.parts.reverse.foldl (x.guardOne (val x)) s, .go)

def execGres (f : Fields) (s : State) :=
  runWave 0xB8 f (unlessRaised Cause.regRange guardIndexErr
    (guardBody fun x lt => if x.b lt 32 = 0 then .false else .true)) s
def execGclr (f : Fields) (s : State) :=
  runWave 0xB9 f (unlessRaised Cause.regRange guardIndexErr (guardBody fun _ _ => .unresolved)) s

/-- The state of the guard slot that a command names; TRUE where it names none (R100). -/
def State.guardOf (s : State) (uid : Nat) (slot : Option Nat) : GuardSlot :=
  match slot with
  | none => .true
  | some n => ((s.team? uid).bind fun t => t.guards[n]?).getD .false

/-! ## Embargoes (R103, R305) -/

/-- An embargo to register: write or read, local or global, the range. -/
structure EmbargoReq where
  wr : Bool
  loc : Bool
  lo : Nat
  hi : Nat
  deriving DecidableEq, Repr

/-- Registers entries of a command in a cluster's table, before the cycle's checks (R105); each takes a free index (log 21). -/
def State.register (s : State) (cluster core uid tid ctx cmd : Nat) (rs : List EmbargoReq) : State :=
  match rs with
  | [] => s
  | r :: rest =>
    let free := (iota 0 64).filter fun i => !s.embargoes.any fun e => e.cluster == cluster && e.entry == i
    let entry := free.getD (s.choose [9, cmd, rest.length] (max 1 free.length)) 0
    let e : Embargo := ⟨cluster, entry, r.wr, r.loc, if r.loc then uid else ctx, core, uid, tid, cmd, r.lo, r.hi⟩
    State.register { s.takePlace (cluster / 32) [6, cluster] 1 with embargoes := s.embargoes ++ [e] } cluster core uid tid ctx cmd rest

/-- Whether a cluster's table has room for some entries. -/
def State.embargoRoom (s : State) (cluster n : Nat) : Bool :=
  decide ((s.embargoes.filter (·.cluster == cluster)).length + n ≤ 64)

/-- A command's entries are released (R105). -/
def State.unregister (s : State) (cmd : Nat) : State := { s with embargoes := s.embargoes.filter (·.cmd != cmd) }

/-- The seal number of the batch of the command that holds an entry; 0 while it is open. -/
def State.batchOf (s : State) (cmd : Nat) : Nat := ((s.couriers.find? (·.id == cmd)).map (·.batch)).getD 0

/-- EMBQ's word (R106, R305). -/
def State.embq (s : State) (t : Team) (ctx tid n : Nat) : Nat :=
  match s.embargoes.find? fun e => e.cluster == t.pkCluster && e.entry == n with
  | none => 0
  | some e =>
    if e.tag ≠ (if e.loc then t.uid else ctx) then 0
    else 2 ^ 63 + e.wr.toNat * 2 ^ 62 + e.loc.toNat * 2 ^ 61 + (e.uid == t.uid && e.tid == tid).toNat * 2 ^ 60
      + e.core % 4 * 2 ^ 58 + e.tid % 1024 * 2 ^ 48 + s.batchOf e.cmd % 2 ^ 32

def execEmbq (f : Fields) (s : State) :=
  runWave 0xBA f (computes 64 fun x lt =>
    let n := x.a lt 32
    if 63 < n then 0 else x.s.embq x.team x.grid.ctx lt.2.tid n) s

end Sys2Proof.Machine
end

