-- ==== Sys2Proof/Machine/Tensor.lean ====
section
/-! DEFINITION. What engines read and write, with unspecified bytes where the manual leaves them so, and tensor descriptors
(R308 to R310) with the tiles they describe (R309, R320). -/

namespace Sys2Proof.Machine

/-! ## Reads and writes of engines (R23, R36, R68) -/

/-- The part of an engine's access in one page, as far as its bytes pass, and TRAPINFO of the first that does not (R97). -/
def State.engPart (s : State) (t : Team) (ctx a : Nat) (acc : Access) (x : Nat × Nat) : Option Part × Option Nat :=
  if 2 ^ 52 ≤ x.1 then (none, some (xinfo 0 acc 3 a))
  else match s.xlate t.engTlb ctx x.1 with
    | .error e => (none, some (xinfo e.reason acc e.level x.1))
    | .ok leaf =>
      let p : Part := ⟨x.1, x.2, leaf⟩
      match permissionErr [p] acc, (if acc = .write then s.violation ctx [p] acc else none), s.refusal ctx p.addr p.count with
      | some i, _, _ => (none, some i)
      | none, some i, _ => (none, some i)
      | none, none, some b => (some { p with count := b - p.addr }, some (xinfo 7 acc 2 (p.va + (b - p.addr))))
      | none, none, none => (some p, none)

/-- The parts of an engine's access up to its first failing byte, and that byte's TRAPINFO. -/
def State.engParts (s : State) (t : Team) (ctx a : Nat) (acc : Access) (l : List (Nat × Nat)) : List Part × Option Nat :=
  match l with
  | [] => ([], none)
  | x :: rest =>
    match s.engPart t ctx a acc x with
    | (p, some i) => (p.toList, some i)
    | (p, none) =>
      let r := s.engParts t ctx a acc rest
      (p.toList ++ r.1, r.2)

/-- An engine's read up to its first failing byte: each byte with its address (a local offset, or the model's address); and
TRAPINFO. -/
def State.engReadTo (s : State) (t : Team) (ctx : Nat) (loc : Bool) (a n : Nat) : List Host.Cell × Option Nat :=
  if loc then
    let k := min n (t.localSize - a)
    (cellsAt a (t.locBytes a k), localErr t .read a n)
  else
    let r := s.engParts t ctx a .read (pageParts a n)
    (r.1.flatMap fun p => cellsAt p.addr (Memory.bytes s.mem p.addr p.count), r.2)

/-- The cells of an engine's write up to its first failing byte; and TRAPINFO. -/
def State.engWriteTo (s : State) (t : Team) (ctx : Nat) (loc : Bool) (a : Nat) (bs : List Byte) : List Host.Cell × Option Nat :=
  if loc then (cellsAt a (bs.take (t.localSize - a)), localErr t .write a bs.length)
  else
    let r := s.engParts t ctx a .write (pageParts a bs.length)
    (r.1.flatMap fun p => cellsAt p.addr ((bs.drop (p.va - a)).take p.count), r.2)

/-- What an access moves if no byte of it fails. -/
def unlessErr (r : List Host.Cell × Option Nat) : Except Nat (List Host.Cell) :=
  match r.2 with
  | some i => .error i
  | none => .ok r.1

def State.engRead (s : State) (t : Team) (ctx : Nat) (loc : Bool) (a n : Nat) : Except Nat (List Host.Cell) :=
  unlessErr (s.engReadTo t ctx loc a n)
def State.engWrite (s : State) (t : Team) (ctx : Nat) (loc : Bool) (a : Nat) (bs : List Byte) : Except Nat (List Host.Cell) :=
  unlessErr (s.engWriteTo t ctx loc a bs)

/-- The addresses of a range that an engine can write, page by page. -/
def State.engReach (s : State) (t : Team) (ctx : Nat) (loc : Bool) (a n : Nat) : List Nat :=
  if loc then iota a (min n (t.localSize - a))
  else (pageParts a n).flatMap fun x => ((s.engPart t ctx a .write x).1.toList).flatMap fun p => iota p.addr p.count

/-- Cells of one space applied by an engine. -/
def State.engApply (s : State) (uid : Nat) (loc : Bool) (cells : List Host.Cell) : State :=
  if loc then s.updTeam uid fun t => t.locWrite cells else s.homeWrite cells

/-- A byte that nothing specifies: the one of this step that a list names. -/
def State.freeByte (s : State) (k : List Nat) : Byte := BitVec.ofNat 8 (s.freeNat (1 :: k))

/-- What a command moves: cells to write (local or global) and the bytes it reads (local or global), with the fault that ends
it and the poisoned sector it reads. -/
structure Plan where
  cells : List (Bool × Host.Cell) := []
  srcs : List (Bool × Nat) := []
  err : Option Nat := none
  deriving DecidableEq, Repr

/-- Destination bytes that the source overlaps, or that are written twice, receive unspecified values (R94, R297). -/
def Plan.settle (p : Plan) (s : State) : Plan :=
  let open? := fun (c : Bool × Host.Cell) =>
    p.srcs.contains (c.1, c.2.1) || decide (1 < (p.cells.filter fun d => d.1 == c.1 && d.2.1 == c.2.1).length)
  { p with cells := ((iota 0 p.cells.length).zip p.cells).map fun k =>
      if open? k.2 then (k.2.1, (k.2.2.1, s.freeByte [0, k.1])) else k.2 }

def Plan.apply (p : Plan) (s : State) (uid : Nat) (pick : Nat → Bool) : State :=
  let cells := (((iota 0 p.cells.length).zip p.cells).filter fun k => pick k.1).map (·.2)
  (s.engApply uid true ((cells.filter (·.1)).map (·.2))).engApply uid false ((cells.filter fun c => !c.1).map (·.2))

/-- A command's reads at the home slices use the lines that they touch (R44, R47). -/
def Plan.demand (p : Plan) (s : State) : State :=
  let addrs := (p.srcs.filter fun x => !x.1).map (·.2)
  (distinct (addrs.map lineOf)).foldl (fun s l => (s.countBypass l).useL2 l (sectorMask (byteMask l addrs)) 0) s

/-- Unspecified bytes at every address of some ranges that an engine can write (R97). -/
def State.freePlan (s : State) (t : Team) (ctx : Nat) (rs : List (Bool × Nat × Nat)) : Plan :=
  let at? := distinct (rs.flatMap fun r => (s.engReach t ctx r.1 r.2.1 r.2.2).map fun a => (r.1, a))
  { cells := ((iota 0 at?.length).zip at?).map fun k => (k.2.1, (k.2.2, s.freeByte [0, k.1])) }

/-- The first poisoned sector that a command reads. -/
def Plan.poison (p : Plan) (s : State) : Option Nat := (p.srcs.find? fun a => !a.1 && s.poisoned a.2 1).map (·.2)

/-! ## Descriptors (R308, R310) -/

def Td.word (td : Td) (k : Nat) : Nat :=
  match k with
  | 0 => td.1.toNat
  | 1 => td.2.1.toNat
  | 2 => td.2.2.1.toNat
  | _ => td.2.2.2.toNat

def Td.sparse (td : Td) : Bool := bit (td.word 0) 60
def Td.sp (td : Td) : Nat := bits (td.word 0) 58 2
def Td.loc (td : Td) : Bool := td.sp == 1
def Td.fmt? (td : Td) : Option Ty :=
  (Ty.ofCode (bits (td.word 0) 53 5)).bind fun t => if [.f32, .f16, .bf16, .e4m3, .e5m2, .e2m1, .ps8, .i8].contains t then some t else none
def Td.fmt (td : Td) : Ty := td.fmt?.getD .f32
def Td.base (td : Td) : Nat := bits (td.word 0) 0 52
def Td.cols (td : Td) : Nat := bits (td.word 1) 48 16
def Td.rows (td : Td) : Nat := bits (td.word 1) 32 16
def Td.stride (td : Td) : Nat := bits (td.word 1) 0 32
def Td.sfmt (td : Td) : Nat := bits (td.word 2) 52 4
def Td.scaled (td : Td) : Bool := td.sfmt == 1
def Td.scale (td : Td) : Nat := bits (td.word 2) 0 52
def Td.metaAt (td : Td) : Nat := bits (td.word 3) 0 52
def Td.storedCols (td : Td) : Nat := if td.sparse then td.cols / 2 else td.cols
def Td.storedLen (td : Td) : Nat := (td.storedCols * td.fmt.bits + 7) / 8

/-- The four words of an image. -/
def tdOf (d : List Byte) : Td :=
  (BitVec.ofNat 64 (field d 0 8), BitVec.ofNat 64 (field d 8 8), BitVec.ofNat 64 (field d 16 8), BitVec.ofNat 64 (field d 24 8))

/-- The checks 2 to 7 of R310: the REASON. -/
def Td.err (td : Td) : Option Nat :=
  let high := td.sp = 1 ∧ (bits td.base 32 20 ≠ 0 ∨ bits td.scale 32 20 ≠ 0 ∨ bits td.metaAt 32 20 ≠ 0)
  if bits (td.word 0) 61 3 ≠ 0 ∨ bit (td.word 0) 52 ∨ bits (td.word 2) 56 8 ≠ 0 ∨ bits (td.word 3) 52 12 ≠ 0 ∨ high then some 6
  else match td.fmt? with
    | none => some 1
    | some f =>
      if 1 < td.sp then some 2
      else if td.rows = 0 ∨ td.cols = 0 ∨ (td.sparse ∧ (f = .f32 ∨ td.cols % 4 ≠ 0)) then some 3
      else if td.base % 16 ≠ 0 ∨ td.stride % 16 ≠ 0 ∨ td.stride < td.storedLen then some 4
      else if 1 < td.sfmt ∨ (td.scaled ∧ f ≠ .e4m3 ∧ f ≠ .e5m2 ∧ f ≠ .e2m1 ∧ f ≠ .ps8) then some 5
      else none

/-- TDSET's effect: the entry after (none leaves it), and the result word. -/
def tdInstall (count index : Nat) (d : List Byte) : Option (Option Td) × Nat :=
  let td := tdOf d
  let bad := fun (r : Nat) => (none, statusWord 0x0E r)
  if td.word 1 = 0 then (some none, 0)
  else if count ≤ index then bad 7
  else match td.err with
    | some r => bad r
    | none => (some (some td), 0)

/-! ## Elements (R309) -/

/-- An address in a descriptor's space: local offsets are of 32 bits. -/
def Td.at (td : Td) (a : Nat) : Nat := if td.loc then a % 2 ^ 32 else a % 2 ^ 64

/-- The bytes of stored element k of row r: first address and count. -/
def Td.elemAt (td : Td) (r k : Nat) : Nat × Nat :=
  (td.at (td.base + r * td.stride + k * td.fmt.bits / 8), max 1 (td.fmt.bits / 8))

/-- The code of a stored element from its bytes. -/
def Td.code (td : Td) (k : Nat) (bs : List Byte) : Nat :=
  if td.fmt = .e2m1 then bits (ofBytes bs) (4 * (k % 2)) 4 else ofBytes bs

def Td.scaleAt (td : Td) (r c : Nat) : Nat := td.at (td.scale + r * ((td.cols + 31) / 32) + c / 32)

/-- An element's value under a scale code (R185): NaN under 0xFF. -/
def scaledValue (fmt : Ty) (code : Nat) (scale : Option Nat) : FVal :=
  let v := if fmt = .i8 then .ofInt (signed 8 code) else FVal.decode fmt code
  match scale with
  | none => v
  | some c => if c = 255 then .nan else v.scale ((c : Int) - 127)

/-- A reader of bytes: each with its address, or TRAPINFO. -/
abbrev Reader := Nat → Nat → Except Nat (List Host.Cell)

/-- A dense element's value, and the addresses read. -/
def Td.read (td : Td) (rd : Reader) (r c : Nat) : Except Nat (FVal × List Nat) :=
  match rd (td.elemAt r c).1 (td.elemAt r c).2 with
  | .error i => .error i
  | .ok cs =>
    let code := td.code c (cs.map (·.2))
    if td.scaled then
      match rd (td.scaleAt r c) 1 with
      | .error i => .error i
      | .ok sc => .ok (scaledValue td.fmt code (some (ofBytes (sc.map (·.2)))), (cs ++ sc).map (·.1))
    else .ok (scaledValue td.fmt code none, cs.map (·.1))

/-- Reads in order until one fails: the values, the addresses, the error. -/
def readAll {α : Type} (f : α → Except Nat (FVal × List Nat)) (l : List α) : List FVal × List Nat × Option Nat :=
  match l with
  | [] => ([], [], none)
  | a :: rest =>
    match f a with
    | .error i => ([], [], some i)
    | .ok v =>
      let r := readAll f rest
      (v.1 :: r.1, v.2 ++ r.2.1, r.2.2)

/-! ## Writing a tile (R320) -/

/-- An element's code by ROUND; .I8 by R184; .F32 is copied. -/
def elementCode (fmt : Ty) (r : Rnd) (sat : Bool) (v : FVal) : Nat :=
  if fmt = .i8 then wrap 8 (v.toIntTy .i8 r) else v.round fmt r (sat && fmt != .f32)

def emaxOf (fmt : Ty) : Int := if fmt = .e4m3 then 8 else if fmt = .e5m2 then 15 else if fmt = .e2m1 then 2 else 1

/-- ⌊log2⌋ of the largest finite magnitude of a block, if it is not zero. -/
def blockLog (l : List FVal) : Option Int :=
  l.foldl (fun acc v => match v with
    | .fin _ m e => if m = 0 then acc else
        let k := (m.log2 : Int) + e
        some (match acc with
          | some a => max a k
          | none => k)
    | _ => acc) none

/-- The scale code of a block. -/
def blockScale (fmt : Ty) (l : List FVal) : Nat :=
  if l.any (·.isNan) then 255
  else match blockLog l with
    | none => 127
    | some k => (min (max (k + 127 - emaxOf fmt) 0) 254).toNat

/-- The codes of a scaled block. -/
def blockCodes (fmt : Ty) (r : Rnd) (sat : Bool) (l : List FVal) : List Nat :=
  if l.any (·.isNan) then l.map fun _ => nanResult fmt
  else l.map fun v => (v.scale (127 - (blockScale fmt l : Int))).round fmt r sat

/-- A list cut into pieces of n, the last one shorter. -/
def chunks {α : Type} (n fuel : Nat) (l : List α) : List (List α) :=
  match fuel with
  | 0 => []
  | fuel + 1 => if l.isEmpty then [] else l.take n :: chunks n fuel (l.drop n)

/-- The bytes of a row of codes: two E2M1 elements a byte, a last odd one with zero above it. -/
def packCodes (fmt : Ty) (l : List Nat) : List Byte :=
  if fmt = .e2m1 then
    (chunks 2 l.length l).map fun p => BitVec.ofNat 8 ((p.head?).getD 0 + ((p.drop 1).head?).getD 0 * 16)
  else l.flatMap fun c => toBytes (fmt.bits / 8) c

/-- The writes of one row of a tile from column c0: (address, bytes), scale bytes last. An odd c0 of E2M1 elements, which only
a tile that reaches COLS may have, keeps the element that shares its first byte. -/
def Td.rowWrites (td : Td) (rnd : Rnd) (sat : Bool) (kept : Nat) (r c0 : Nat) (vs : List FVal) : List (Nat × List Byte) :=
  let start := (td.elemAt r c0).1
  if td.scaled then
    let blocks := chunks 32 vs.length vs
    (start, packCodes td.fmt (blocks.flatMap (blockCodes td.fmt rnd sat))) ::
      ((iota 0 blocks.length).zip blocks).map fun b => (td.scaleAt r (c0 + 32 * b.1), [BitVec.ofNat 8 (blockScale td.fmt b.2)])
  else
    let codes := vs.map (elementCode td.fmt rnd sat)
    [(start, packCodes td.fmt (if td.fmt = .e2m1 ∧ c0 % 2 = 1 then kept :: codes else codes))]

/-- The writes of a tile as a plan, until one fails. -/
def planWrites (s : State) (t : Team) (ctx : Nat) (loc : Bool) (ws : List (Nat × List Byte)) : Plan :=
  match ws with
  | [] => {}
  | w :: rest =>
    match s.engWriteTo t ctx loc w.1 w.2 with
    | (cells, some i) => { cells := cells.map fun c => (loc, c), err := some i }
    | (cells, none) =>
      let p := planWrites s t ctx loc rest
      { p with cells := cells.map (fun c => (loc, c)) ++ p.cells }

/-- The E2M1 element before column c0, where it shares a byte with it. -/
def Td.kept (td : Td) (rd : Reader) (r c0 : Nat) : Nat :=
  match rd (td.elemAt r c0).1 1 with
  | .ok cs => ofBytes (cs.map (·.2)) % 16
  | .error _ => 0

/-- Whether a tile lies within a descriptor's rows and columns. -/
def Td.holds (td : Td) (row0 col0 rows cols : Nat) : Bool := decide (row0 + rows ≤ td.rows ∧ col0 + cols ≤ td.cols)

/-- The column conditions of R320 on a destination tile: of a scaled one, and of E2M1 elements. -/
def Td.scaleFits (td : Td) (col0 cols : Nat) : Bool := col0 % 32 == 0 && (cols % 32 == 0 || col0 + cols == td.cols)
def Td.pairsFit (td : Td) (col0 cols : Nat) : Bool :=
  td.fmt != .e2m1 || (col0 % 2 == 0 && cols % 2 == 0) || col0 + cols == td.cols
def Td.storable (td : Td) (col0 cols : Nat) : Bool := (!td.scaled || td.scaleFits col0 cols) && td.pairsFit col0 cols

/-- The lowest and highest addresses of the elements of a dense tile, and of its scale bytes. -/
def Td.elemSpan (td : Td) (row0 col0 rows cols : Nat) : Nat × Nat :=
  ((td.elemAt row0 col0).1, (td.elemAt (row0 + rows - 1) (col0 + cols - 1)).1 + (td.elemAt 0 0).2 - 1)

def Td.scaleSpan (td : Td) (row0 col0 rows cols : Nat) : Nat × Nat :=
  (td.scaleAt row0 col0, td.scaleAt (row0 + rows - 1) (col0 + cols - 1))

/-- The lowest and the highest byte of a tile, its scale bytes among them (R103). -/
def Td.tileSpan (td : Td) (row0 col0 rows cols : Nat) : Nat × Nat :=
  let x := td.elemSpan row0 col0 rows cols
  let y := td.scaleSpan row0 col0 rows cols
  if td.scaled then (min x.1 y.1, max x.2 y.2) else x

/-- The ranges of a tile: each row's elements, and its scale bytes. -/
def Td.ranges (td : Td) (row0 col0 rows cols : Nat) : List (Nat × Nat) :=
  (iota 0 rows).flatMap fun i =>
    let x := td.elemSpan (row0 + i) col0 1 cols
    let y := td.scaleSpan (row0 + i) col0 1 cols
    (x.1, x.2 - x.1 + 1) :: (if td.scaled then [(y.1, y.2 - y.1 + 1)] else [])

/-! ## TRAPINFO of a command's fault (R313) -/

def commandInfo (detail op td : Nat) : Nat := 15 * 2 ^ 60 + detail * 2 ^ 48 + op * 2 ^ 40 + td * 2 ^ 32

/-- The descriptor of an index of a team. -/
def Team.td? (t : Team) (k : Nat) : Option Td := (t.tds[k]?).bind id

/-- Check 2 of R312: the DETAIL. -/
def Team.tdErr (t : Team) (count k : Nat) : Option Nat :=
  if count ≤ k then some 2 else if (t.td? k).isNone then some 3 else none

end Sys2Proof.Machine
end

