-- ==== Sys2Proof/Machine/Courier.lean ====
section
/-! DEFINITION. The courier engine: its commands, batches, seals and waits (R93 to R98, R295 to R301, R321). -/

namespace Sys2Proof.Machine

/-! ## What a command moves -/

/-- A range of a command: destination and source, of n bytes. -/
structure Seg where
  dLoc : Bool
  sLoc : Bool
  d : Nat
  s : Nat
  n : Nat
  deriving DecidableEq, Repr

/-- An address in a space. -/
def spaceAddr (loc : Bool) (a : Int) : Nat := wrap (if loc then 32 else 64) a

/-- REASON SLOT_STATE (R24). -/
def slotStateInfo (hdr : Nat) : Nat := 14 * 2 ^ 60 + 1 * 2 ^ 58 + 3 * 2 ^ 56 + hdr % 2 ^ 32

/-- Rows of CPY2D. -/
def rowSegs (dLoc sLoc : Bool) (d s : Nat) (dStride sStride : Int) (rows len : Nat) : List Seg :=
  (iota 0 rows).map fun (r : Nat) =>
    ⟨dLoc, sLoc, spaceAddr dLoc (d + r * dStride), spaceAddr sLoc (s + r * sStride), len⟩

/-- The first byte of a write into a named slot, which reaches `lo` bytes below its offset and `hi` above it; none where it does not
lie in the slot (R296, R297). -/
def slotDst (t : Team) (hdr slot off lo hi : Nat) : Option Nat :=
  match t.ring? hdr with
  | none => none
  | some r => if lo ≤ off ∧ off + hi ≤ r.slotBytes then some (r.slotAt slot + off) else none

/-- How far below its first byte, and above it, a CPY2D writes. -/
def reach2d (stride : Int) (rows len : Nat) : Nat × Nat :=
  let last : Int := stride * ((rows : Int) - 1)
  (if last < 0 then (-last).toNat else 0, if last < 0 then len else last.toNat + len)

/-- The accepted candidates of a mask, in order (R299). -/
def candidates (mask : Nat) : List Nat := (iota 0 128).filter fun k => bit mask k

def kvSegs (dLoc sLoc : Bool) (cand base eb l mask : Nat) : List Seg :=
  let ks := candidates mask
  ((iota 0 ks.length).zip ks).map fun k =>
    ⟨dLoc, sLoc, spaceAddr dLoc (base + (l + k.1) * eb), spaceAddr sLoc (cand + k.2 * eb), eb⟩

/-- The ranges of a command, or TRAPINFO of a command whose slot does not hold them. A slot's ring header is read as it stands: at
registration, at the start, and as bytes land (DESIGN CHOICE: log 121; R296 and R297 do not say when). -/
def CourierOp.segs (o : CourierOp) (t : Team) : Except Nat (List Seg) :=
  match o with
  | .cpy dl sl d s n => .ok [⟨dl, sl, d, s, n⟩]
  | .cpySlot sl hdr slot off s n =>
    match slotDst t hdr slot off 0 n with
    | some d => .ok [⟨true, sl, d, s, n⟩]
    | none => .error (slotStateInfo hdr)
  | .cpy2d dl sl d s ds ss rows len => .ok (rowSegs dl sl d s ds ss rows len)
  | .cpy2dSlot sl hdr slot s ds ss rows len =>
    match slotDst t hdr slot 0 (reach2d ds rows len).1 (reach2d ds rows len).2 with
    | some d => .ok (rowSegs true sl d s ds ss rows len)
    | none => .error (slotStateInfo hdr)
  | .cpytd .. => .ok []
  | .kvcommit dl sl cand base eb l mask _ => .ok (kvSegs dl sl cand base eb l mask)

/-- One range: its cells and sources up to the first failing byte; where both sides fail at one byte, the read is reported (DESIGN
CHOICE: log 87). -/
def Seg.plan (g : Seg) (s : State) (t : Team) (ctx : Nat) : Plan :=
  let r := s.engReadTo t ctx g.sLoc g.s g.n
  let w := s.engWriteTo t ctx g.dLoc g.d (toBytes g.n 0)
  let n := min r.1.length w.1.length
  { cells := (w.1.zip r.1).map fun x => (g.dLoc, (x.1.1, x.2.2))
    srcs := (r.1.take n).map fun (c : Host.Cell) => (g.sLoc, c.1)
    err := if n = g.n then none else if w.1.length < r.1.length then w.2 else r.2 }

/-- Ranges in order, until one fails. -/
def planSegs (s : State) (t : Team) (ctx : Nat) (gs : List Seg) : Plan :=
  match gs with
  | [] => {}
  | g :: rest =>
    let p := g.plan s t ctx
    match p.err with
    | some _ => p
    | none =>
      let q := planSegs s t ctx rest
      { cells := p.cells ++ q.cells, srcs := p.srcs ++ q.srcs, err := q.err }

/-- The rows of a CPYTD: values read, until a read fails. -/
def planTd (s : State) (t : Team) (ctx : Nat) (dst src : Td) (drow dcol srow scol rows cols : Nat) : Plan :=
  let rd := s.engRead t ctx src.loc
  let reads := (iota 0 rows).map fun i => readAll (fun j => src.read rd (srow + i) (scol + j)) (iota 0 cols)
  let err := reads.findSome? fun r => r.2.2
  let whole := reads.takeWhile fun r => r.2.2.isNone
  let ws := ((iota 0 whole.length).zip whole).flatMap fun r =>
    dst.rowWrites .rn false (dst.kept (s.engRead t ctx dst.loc) (drow + r.1) dcol) (drow + r.1) dcol r.2.1
  let p := planWrites s t ctx dst.loc ws
  { p with
    srcs := reads.flatMap fun r => r.2.1.map fun a => (src.loc, a)
    err := match p.err with
      | some i => some i
      | none => err }

/-- What a command moves as the machine stands. -/
def Courier.plan (k : Courier) (s : State) (t : Team) : Plan :=
  match k.what, k.tds with
  | .cpytd _ _ drow dcol srow scol rows cols, [dst, src] => (planTd s t k.ctx dst src drow dcol srow scol rows cols).settle s
  | _, _ =>
    match k.what.segs t with
    | .error i => { err := some i }
    | .ok gs => (planSegs s t k.ctx gs).settle s

/-- Whether a command writes into a named slot. -/
def CourierOp.slot? : CourierOp → Option (Nat × Nat)
  | .cpySlot _ hdr slot .. => some (hdr, slot)
  | .cpy2dSlot _ hdr slot .. => some (hdr, slot)
  | _ => none

/-- The span from the lowest to the highest byte of ranges. -/
def spanOf (l : List (Nat × Nat)) : Option (Nat × Nat) :=
  match l with
  | [] => none
  | x :: rest => some (rest.foldl (fun acc y => (min acc.1 y.1, max acc.2 (y.1 + y.2 - 1))) (x.1, x.1 + x.2 - 1))

/-- The embargo entries of a command (R103): one for each side. -/
def Courier.embargoes (k : Courier) (t : Team) : List EmbargoReq :=
  match k.what, k.tds with
  | .cpytd _ _ drow dcol srow scol rows cols, [dst, src] =>
    let r := fun (td : Td) (wr : Bool) (row col : Nat) =>
      (⟨wr, td.loc, (td.tileSpan row col rows cols).1, (td.tileSpan row col rows cols).2⟩ : EmbargoReq)
    [r src false srow scol, r dst true drow dcol]
  | _, _ =>
    match k.what.segs t with
    | .error _ =>
      -- a slot that breaks R107 registers the source side only
      let src := match k.what with
        | .cpySlot sl _ _ _ a n => [(⟨false, sl, a, a + n - 1⟩ : EmbargoReq)]
        | .cpy2dSlot sl _ _ a _ ss rows len =>
          match spanOf ((rowSegs true sl 0 a 0 ss rows len).map fun g => (g.s, g.n)) with
          | some x => [⟨false, sl, x.1, x.2⟩]
          | none => []
        | _ => []
      src
    | .ok gs =>
      match spanOf (gs.map fun g => (g.s, g.n)), spanOf (gs.map fun g => (g.d, g.n)), gs.head? with
      | some x, some y, some g => [⟨false, g.sLoc, x.1, x.2⟩, ⟨true, g.dLoc, y.1, y.2⟩]
      | _, _, _ => []

/-- The ranges that a command writes, but for KVCOMMIT's length. -/
def Courier.dests (k : Courier) (t : Team) : List (Bool × Nat × Nat) :=
  match k.what, k.tds with
  | .cpytd _ _ drow dcol _ _ rows cols, [dst, _] => (dst.ranges drow dcol rows cols).map fun r => (dst.loc, r)
  | _, _ => match k.what.segs t with
    | .ok gs => gs.map fun g => (g.dLoc, g.d, g.n)
    | .error _ => []

/-- The destinations of a command, for the range acquire of WAITB (R96, R299). -/
def Courier.spans (k : Courier) (t : Team) : List Span :=
  (k.dests t).map (fun r => ⟨r.1, r.2.1, r.2.2⟩) ++ match k.what with
    | .kvcommit _ _ _ _ _ _ _ lenVa => [⟨false, lenVa, 4⟩]
    | _ => []

/-! ## Entering the queue (R93, R295) -/

def State.updCourier (s : State) (id : Nat) (f : Courier → Courier) : State :=
  { s with couriers := updWhere (·.id == id) f s.couriers }

/-- Commands in a core's queue. -/
def State.queueLen (s : State) (core : Nat) : Nat :=
  (s.couriers.filter fun k => k.core == core && (k.state == .queued || k.state == .running)).length

/-- The thread's earlier stores to a command's global source have reached the home slices (R93). -/
def Courier.sourceReady (k : Courier) (s : State) (t : Team) : Bool :=
  (k.embargoes t).all fun e => e.wr ||
    (if e.loc then !s.locBusy k.uid k.tid e.lo (e.hi - e.lo + 1)
     else storesDone s (.range e.lo (e.hi + 1)) .pk k.uid k.tid k.id)

/-- An earlier command of its thread is held: it enters first (R97). -/
def State.heldBefore (s : State) (k : Courier) : Bool :=
  (s.couriers.takeWhile fun j => j.id != k.id).any fun j => j.uid == k.uid && j.tid == k.tid && j.state == .held

/-- A command registers its embargoes and takes a queue entry, if it can (R295 steps 4 and 5). -/
def State.enterCourier (s : State) (k : Courier) : Option State :=
  match s.team? k.uid with
  | none => none
  | some t =>
    let es := k.embargoes t
    let cluster := k.core / 4
    if !s.heldBefore k && s.embargoRoom cluster es.length && decide (s.queueLen k.core < 32) && k.sourceReady s t then
      let rest := s.couriers.filter (·.id != k.id)
      some (({ s with couriers := rest ++ [{ k with state := .queued }] }).register cluster k.core k.uid k.tid k.ctx k.id es)
    else none

/-- A participant's command, in its thread's open batch. -/
def Issue.command (x : Issue) (lt : Nat × Thread) (what : CourierOp) (tds : List Td) (s : State) : Courier :=
  { id := s.seq, core := x.team.pkCore, uid := x.team.uid, tid := lt.2.tid, ctx := x.grid.ctx, gid := x.grid.gid,
    pc := x.pc.toNat, what, guardSlot := guardSlotOf x.op x.f, batch := 0, number := lt.2.seals + 1, state := .held, tds }

/-- A participant's command: it enters the queue, or its thread waits. -/
def Issue.issueCourier (x : Issue) (lt : Nat × Thread) (what : CourierOp) (tds : List Td) (s : State) : State :=
  let k := x.command lt what tds s
  let s := { s with couriers := s.couriers ++ [k] }.tick
  match s.enterCourier k with
  | some s => s
  | none => x.block lt.2.tid (.courier k.id) s

/-! ## CPY, CPY2D, CPYTD -/

/-- The operation of a CPY or CPY2D; none where it moves nothing. -/
def Issue.copyOp (x : Issue) (lt : Nat × Thread) : Option CourierOp :=
  let dl := x.f.mods.dsp == .l
  let sl := x.f.mods.ssp == .l
  let a := x.a lt 64
  let src := spaceAddr sl (x.b lt 64)
  let d := spaceAddr dl a
  if x.op = 0xA9 then
    let n := x.c lt 32
    if n = 0 then none
    else if x.f.mods.bit then some (.cpySlot sl (a % 2 ^ 32) (a / 2 ^ 32) (16 * (x.f.x21.toNat % 2 ^ 16)) src n)
    else some (.cpy dl sl d src n)
  else
    let c := x.c lt 64
    let ds := signed 32 c
    let ss := signed 32 (c / 2 ^ 32)
    let rows := x.f.x21.toNat % 2 ^ 16
    let len := x.f.l32.toNat
    if x.f.mods.bit then some (.cpy2dSlot sl (a % 2 ^ 32) (a / 2 ^ 32) src ds ss rows len)
    else some (.cpy2d dl sl d src ds ss rows len)

/-- LOCAL_RANGE of a side that covers ranges of local memory: the lowest refused offset. -/
def sideErr (t : Team) (a : Access) (loc : Bool) (rs : List (Nat × Nat)) : Option Nat :=
  if !loc then none
  else match minBy id (rs.filterMap fun r => if t.localSize < r.1 + r.2 then some (max r.1 t.localSize) else none) with
    | some o => some (xinfo 13 a 3 o)
    | none => none

/-- The lower refused offset of two sides; the destination's where they are the same (DESIGN CHOICE: log 22). -/
def lowerErr (d r : Option Nat) : Option Nat :=
  match d, r with
  | some d, some r => if r % 2 ^ 52 < d % 2 ^ 52 then some r else some d
  | d, r => firstErr d r

/-- Step 2 of R295: the lowest refused offset of both sides. -/
def CourierOp.localErr (o : CourierOp) (t : Team) : Option Nat :=
  match o.segs t with
  | .ok gs =>
    match gs.head? with
    | none => none
    | some g => lowerErr (sideErr t .write g.dLoc (gs.map fun g => (g.d, g.n))) (sideErr t .read g.sLoc (gs.map fun g => (g.s, g.n)))
  | .error _ => match o with
    | .cpySlot sl _ _ _ a n => sideErr t .read sl [(a, n)]
    | .cpy2dSlot sl _ _ a _ ss rows len => sideErr t .read sl ((rowSegs true sl 0 a 0 ss rows len).map fun g => (g.s, g.n))
    | _ => none

def copyLocalErr (x : Issue) (lt : Nat × Thread) : Option Nat := (x.copyOp lt).bind fun o => o.localErr x.team

def copyBody (x : Issue) (s : State) : State × Out :=
  (x.parts.foldl (fun s lt => match x.copyOp lt with
    | some o => x.issueCourier lt o [] s
    | none => s) s, .go)

def execCpy (f : Fields) (s : State) := runWave 0xA9 f (unlessRaised Cause.localRange copyLocalErr copyBody) s
def execCpy2d (f : Fields) (s : State) := runWave 0xAA f (unlessRaised Cause.localRange copyLocalErr copyBody) s

/-- The checks of R321 on a CPYTD: TRAPINFO. The two tiles have equal extents, since the instruction gives one extent for both
(DEDUCED: log 88). -/
def cpytdErr (x : Issue) (lt : Nat × Thread) : Option Nat :=
  let td := bits x.f.x21.toNat 0 6
  let ts := bits x.f.x21.toNat 6 6
  let count := x.grid.lrec.tdcount
  let a := x.a lt 64
  let b := x.b lt 64
  let e := x.c lt 32
  let rows := e % 2 ^ 16
  let cols := e / 2 ^ 16
  match x.team.tdErr count td, x.team.tdErr count ts, x.team.td? td, x.team.td? ts with
  | some d, _, _, _ => some (commandInfo d 0xAB td)
  | none, some d, _, _ => some (commandInfo d 0xAB ts)
  | none, none, some dd, some ss =>
    if dd.sparse then some (commandInfo 4 0xAB td)
    else if ss.sparse then some (commandInfo 4 0xAB ts)
    else if rows = 0 ∨ cols = 0 then none
    else if !dd.holds (a % 2 ^ 32) (a / 2 ^ 32) rows cols || (dd.scaled && !dd.storable (a / 2 ^ 32) cols) then
      some (commandInfo 5 0xAB td)
    else if !ss.holds (b % 2 ^ 32) (b / 2 ^ 32) rows cols then some (commandInfo 5 0xAB ts)
    else none
  | _, _, _, _ => none

def Issue.cpytdOp (x : Issue) (lt : Nat × Thread) : Option (CourierOp × Td × Td) :=
  let td := bits x.f.x21.toNat 0 6
  let ts := bits x.f.x21.toNat 6 6
  let a := x.a lt 64
  let b := x.b lt 64
  let e := x.c lt 32
  match x.team.td? td, x.team.td? ts with
  | some dd, some ss =>
    if e % 2 ^ 16 = 0 ∨ e / 2 ^ 16 = 0 then none
    else some (.cpytd td ts (a % 2 ^ 32) (a / 2 ^ 32) (b % 2 ^ 32) (b / 2 ^ 32) (e % 2 ^ 16) (e / 2 ^ 16), dd, ss)
  | _, _ => none

/-- Step 2 of R295, before the checks of R321: on the sides whose descriptors those checks accept (DEDUCED: log 88). -/
def cpytdLocalErr (x : Issue) (lt : Nat × Thread) : Option Nat :=
  match x.cpytdOp lt with
  | some (.cpytd td ts drow dcol srow scol rows cols, dd, ss) =>
    let side := fun (k : Nat) (d : Td) (a : Access) (row col : Nat) =>
      if (x.team.tdErr x.grid.lrec.tdcount k).isSome || d.sparse then none else sideErr x.team a d.loc (d.ranges row col rows cols)
    lowerErr (side td dd .write drow dcol) (side ts ss .read srow scol)
  | _ => none

def cpytdBody (x : Issue) (s : State) : State × Out :=
  (x.parts.foldl (fun s lt => match x.cpytdOp lt with
    | some (o, dd, ss) => x.issueCourier lt o [dd, ss] s
    | none => s) s, .go)

def execCpytd (f : Fields) (s : State) :=
  runWave 0xAB f (unlessRaised Cause.localRange cpytdLocalErr (unlessRaised Cause.courierFault cpytdErr cpytdBody)) s

/-! ## Batches (R95, R96, R301) -/

/-- A sealed batch of a thread has an unfinished command. -/
def State.unfinished (s : State) (uid tid n : Nat) : Bool :=
  s.couriers.any fun k => k.uid == uid && k.tid == tid && k.batch == n

/-- The thread's sealed, unfinished batches. -/
def State.openSeals (s : State) (uid : Nat) (th : Thread) : List Nat := th.sealed.filter fun n => s.unfinished uid th.tid n

/-- The open batch is sealed: the state and the seal number. -/
def State.sealBatch (s : State) (uid tid : Nat) : State × Nat :=
  match s.thread? uid tid with
  | none => (s, 0)
  | some th =>
    let n := th.seals + 1
    let close := fun (k : Courier) => if k.batch = 0 then { k with batch := n } else k
    let s := { s with couriers := updWhere (fun k => k.uid == uid && k.tid == tid) close s.couriers }
    (s.updThread uid tid fun th => { th with
      seals := n, sealed := (s.openSeals uid th) ++ [n]
      waitbSpans := th.waitbSpans.map fun w => if w.1 = 0 then (n, w.2) else w }, n)

/-- SEAL of one participant: it waits while 255 sealed batches are unfinished. -/
def Issue.sealOne (x : Issue) (s : State) (lt : Nat × Thread) : State :=
  if 255 ≤ (s.openSeals x.team.uid lt.2).length then x.block lt.2.tid (.seal (x.dst lt)) s
  else
    let r := s.sealBatch x.team.uid lt.2.tid
    x.give lt 32 (r.2 % 2 ^ 32) r.1

def execSeal (f : Fields) (s : State) := runWave 0xAC f (plain fun x s => x.parts.foldl x.sealOne s) s

def State.settleSeal (s : State) (uid : Nat) (th : Thread) (d : Operand) : State :=
  if 255 ≤ (s.openSeals uid th).length then s
  else
    let r := s.sealBatch uid th.tid
    (r.1.give uid th.tid d 32 (r.2 % 2 ^ 32)).wake uid th.tid

/-- The thread's faulted commands, in the order in which it issued them (R97). -/
def State.faultedCouriers (s : State) (uid tid : Nat) : List Courier :=
  sortBy (·.id) (s.couriers.filter fun k => k.uid == uid && k.tid == tid && match k.state with
    | .faulted .. => true
    | _ => false)

/-- TRAPINFO of the thread's oldest faulted command (R97). -/
def State.courierFault (s : State) (uid tid : Nat) : Option Nat :=
  (s.faultedCouriers uid tid).head?.bind fun k => match k.state with
    | .faulted _ i => some i
    | _ => none

def waitbErr (x : Issue) (lt : Nat × Thread) : Option Nat := x.s.courierFault x.team.uid lt.2.tid

/-- Invalidates the global spans of finished commands (R96, R323). -/
def State.acquireSpans (s : State) (t : Team) (l : List Span) : State :=
  (l.filter fun x => !x.loc).foldl (fun s x => s.rangeAcquire t.engTlb t.pkCluster (s.ctxOf t) x.start (x.start + x.len)) s

/-- A WAITB that is over, as enough batches are finished: with its acquire and its result (R96). -/
def State.waitbOver (s : State) (t : Team) (th : Thread) (n : Nat) (d : Operand) : Option State :=
  let left := s.openSeals t.uid th
  if left.length ≤ n ∨ 255 ≤ n then
    let done := th.waitbSpans.filter fun w => w.1 != 0 && !left.contains w.1
    let s := (s.acquireSpans t (done.map (·.2))).updThread t.uid th.tid fun th =>
      { th with sealed := left, waitbSpans := th.waitbSpans.filter fun w => !done.contains w }
    some (s.give t.uid th.tid d 32 left.length)
  else none

/-- A waiting WAITB: a fault traps, enough finished batches end the wait. -/
def State.settleWaitb (s : State) (t : Team) (th : Thread) (n : Nat) (d : Operand) : State :=
  match s.courierFault t.uid th.tid, s.waitbOver t th n d with
  | some i, _ => s.trapAlone t.uid th.tid Cause.courierFault i
  | none, some s => s.wake t.uid th.tid
  | none, none => s

/-- WAITB of one participant: it goes on where its wait is over, and waits where it is not (R159). -/
def Issue.waitbOne (x : Issue) (s : State) (lt : Nat × Thread) : State :=
  let n := x.a lt 32
  (s.waitbOver x.team lt.2 n (x.dst lt)).getD (x.block lt.2.tid (.waitb n x.f.mods.sc (x.dst lt)) s)

def waitbBody (x : Issue) (s : State) : State × Out := (x.parts.foldl x.waitbOne s, .go)

def execWaitb (f : Fields) (s : State) := runWave 0xAD f (unlessRaised Cause.courierFault waitbErr waitbBody) s

/-! ## KVCOMMIT (R299, R300) -/

/-- The statuses of KVCOMMIT. -/
def kvStatus (code reason : Nat) : Nat := 2 ^ 63 + reason * 256 + code

/-- What KVCOMMIT finds at issue: a failed read's TRAPINFO, a status, or the command with the new length. -/
inductive KvPlan where
  | trap (info : Nat)
  | status (w : Nat)
  | go (o : Option CourierOp) (newLen : Nat)
  deriving DecidableEq, Repr

def Issue.kvPlan (x : Issue) (s : State) (lt : Nat × Thread) : KvPlan :=
  let va := x.a lt 64
  let dl := x.f.mods.dsp == .l
  let sl := x.f.mods.ssp == .l
  if va % 32 ≠ 0 then .status (kvStatus 0x0C 1)
  else match s.readVa x.team.tlb x.grid.ctx va 32 with
    | .error i => .trap i
    | .ok r =>
      let lenVa := field r 16 8
      let eb := field r 24 4
      let cap := field r 28 4
      if eb % 16 ≠ 0 ∨ eb < 16 ∨ 65536 < eb ∨ cap = 0 ∨ 2 ^ 31 ≤ cap then .status (kvStatus 0x0C 2)
      else if lenVa % 4 ≠ 0 then .status (kvStatus 0x0C 3)
      else match s.readVa x.team.tlb x.grid.ctx lenVa 4 with
        | .error i => .trap i
        | .ok lw =>
          let l := ofBytes lw
          let mask := x.b lt 128
          let n := popcount 128 mask
          if cap < l then .status (kvStatus 0x0C 3)
          else if cap < l + n then .status (kvStatus 0x0D 0)
          else if n = 0 then .go none l
          else .go (some (.kvcommit dl sl (spaceAddr sl (field r 0 8)) (spaceAddr dl (field r 8 8)) eb l mask lenVa)) (l + n)

def kvTrap (cause : Nat) (x : Issue) (lt : Nat × Thread) : Option Nat :=
  match x.kvPlan x.s lt with
  | .trap i => if xcause i = cause then some i else none
  | _ => none

/-- The side spans of the accepted candidates and of the entries (R299). -/
def kvLocalErr (x : Issue) (lt : Nat × Thread) : Option Nat :=
  match x.kvPlan x.s lt with
  | .go (some o) _ =>
    match o.segs x.team with
    | .ok gs =>
      match spanOf (gs.map fun g => (g.d, g.n)), spanOf (gs.map fun g => (g.s, g.n)), gs.head? with
      | some d, some r, some g =>
        lowerErr (sideErr x.team .write g.dLoc [(d.1, d.2 - d.1 + 1)]) (sideErr x.team .read g.sLoc [(r.1, r.2 - r.1 + 1)])
      | _, _, _ => none
    | .error _ => none
  | _ => none

/-- The command has joined the open batch, which is sealed: the result (R299). -/
def State.kvSeal (s : State) (uid tid newLen : Nat) (d : Operand) : State :=
  let r := s.sealBatch uid tid
  r.1.give uid tid d 64 (newLen * 2 ^ 32 + r.2 % 2 ^ 32)

/-- The reads of the record and of the length word use their lines (R47). -/
def Issue.kvDemand (x : Issue) (s : State) (lt : Nat × Thread) : State :=
  let va := x.a lt 64
  match s.readVa x.team.tlb x.grid.ctx va 32 with
  | .error _ => s
  | .ok r => (s.demandVa x.team.tlb x.grid.ctx va 32).demandVa x.team.tlb x.grid.ctx (field r 16 8) 4

/-- A poisoned sector that the reads of the record and of the length word meet: its virtual address (R380). -/
def Issue.kvPoison (x : Issue) (s : State) (lt : Nat × Thread) : Option Nat :=
  let va := x.a lt 64
  if va % 32 ≠ 0 then none
  else if s.poisonedVa x.team.tlb x.grid.ctx va 32 then some va
  else match s.readVa x.team.tlb x.grid.ctx va 32 with
    | .error _ => none
    | .ok r =>
      let lenVa := field r 16 8
      if lenVa % 4 = 0 ∧ s.poisonedVa x.team.tlb x.grid.ctx lenVa 4 then some lenVa else none

/-- KVCOMMIT of one participant, after its checks. -/
def Issue.kvOne (x : Issue) (s : State) (lt : Nat × Thread) : State :=
  match x.kvPlan s lt with
  | .trap _ => s
  | .status w => x.give lt 64 w (x.kvDemand s lt)
  | .go none newLen => (x.kvDemand s lt).kvSeal x.team.uid lt.2.tid newLen (x.dst lt)
  | .go (some o) newLen =>
    let s := x.kvDemand s lt
    let k := x.command lt o [] s
    let s := { s with couriers := s.couriers ++ [k] }.tick
    match s.enterCourier k with
    | some s => s.kvSeal x.team.uid lt.2.tid newLen (x.dst lt)
    | none => x.block lt.2.tid (.kventer k.id newLen (x.dst lt)) s

/-- A command held until embargo entries and a queue entry are free. -/
def State.settleHeldCourier (s : State) (k : Courier) : State :=
  match s.enterCourier k with
  | none => s
  | some s =>
    match (s.thread? k.uid k.tid).bind (·.wait?) with
    | some (.courier c) => if c = k.id then s.wake k.uid k.tid else s
    | some (.kventer c n d) => if c = k.id then (s.kvSeal k.uid k.tid n d).wake k.uid k.tid else s
    | _ => s

/-- The thread's stores to the record and to the length word have performed. -/
def kvReady (x : Issue) (s : State) (lt : Nat × Thread) : Bool :=
  let va := x.a lt 64
  va % 32 != 0 || (x.ownDone s lt va 32 && match s.readVa x.team.tlb x.grid.ctx va 32 with
    | .ok r => x.ownDone s lt (field r 16 8) 4
    | .error _ => true)

/-- A poisoned sector in what a participant reads kills the context (R380). -/
def unlessPoisoned (poison : Issue → State → Nat × Thread → Option Nat) (body : Issue → State → State × Out) (x : Issue) (s : State) :
    State × Out :=
  match x.parts.findSome? (poison x s) with
  | some va => (s.killPoisoned x.grid.ctx va, .handled)
  | none => body x s

/-- KVCOMMIT's checks and effect. -/
def kvRun : Issue → State → State × Out :=
  whenReady kvReady (unlessPoisoned Issue.kvPoison (unlessRaised Cause.xlate (kvTrap Cause.xlate)
    (unlessRaised Cause.permission (kvTrap Cause.permission)
      (unlessRaised Cause.polderExpired (kvTrap Cause.polderExpired)
        (unlessRaised Cause.localRange kvLocalErr (plain fun x s => x.parts.foldl x.kvOne s))))))

/-- Participants with 255 sealed, unfinished batches wait, and then execute the instruction. Where they write an S register, which
the lowest lane of all of them writes (R202), the wave waits instead. -/
def kvBody (x : Issue) (s : State) : State × Out :=
  let full := x.parts.filter fun lt => 255 ≤ (s.openSeals x.team.uid lt.2).length
  match full, x.f.d with
  | _ :: _, .s _ => (s, .again)
  | _, _ =>
  let s := full.foldl (fun s lt => { x with len := 0, f := { x.f with marker := false } }.block lt.2.tid .kvcommit s) s
  let x := { x with parts := x.parts.filter fun lt => (s.openSeals x.team.uid lt.2).length < 255 }
  kvRun x s

def execKvcommit (f : Fields) (s : State) := runWave 0xAE f kvBody s

def State.settleKv (s : State) (uid : Nat) (th : Thread) : State :=
  if 255 ≤ (s.openSeals uid th).length then s else s.wake uid th.tid

/-! ## Steps of the courier engine (R94, R97, R100, R101) -/

/-- A command completes: its embargoes go, its destinations wait for its thread's WAITB. -/
def State.endCourier (s : State) (k : Courier) : State :=
  let spans := match s.team? k.uid with
    | some t => k.spans t
    | none => []
  let s := ({ s with couriers := s.couriers.filter (·.id != k.id) }).unregister k.id
  s.updThread k.uid k.tid fun th => { th with waitbSpans := th.waitbSpans ++ spans.map fun x => (k.batch, x) }

/-- A command stops with a fault (R94, R97). -/
def State.faultCourier (s : State) (k : Courier) (info : Nat) : State :=
  (s.updCourier k.id fun k => { k with state := .faulted Cause.courierFault info }).unregister k.id

/-- Which bytes of a command a step of the engine writes first. -/
def early (started k : Nat) : Bool := Config.free started [4, k] % 2 == 1

/-- The virtual address at which a command reads a byte of the model's address a. -/
def Courier.sourceVa (k : Courier) (s : State) (t : Team) (a : Nat) : Nat :=
  ((k.embargoes t).findSome? fun e =>
    if e.wr ∨ e.loc then none
    else (iota (e.lo / 2 ^ 16) (e.hi / 2 ^ 16 - e.lo / 2 ^ 16 + 1)).findSome? fun pg =>
      match s.xlate t.engTlb k.ctx (pg * 2 ^ 16) with
      | .ok l => if l.addr (pg * 2 ^ 16) / 2 ^ 16 = a / 2 ^ 16 then some (pg * 2 ^ 16 + a % 2 ^ 16) else none
      | .error _ => none).getD 0

/-- COURIER_COMMAND_START: the head of a core's queue samples its guard, and starts or is discarded. -/
def State.courierStart (s : State) (core : Nat) : State :=
  match s.couriers.find? fun k => k.core == core && k.state == .queued with
  | none => s
  | some k =>
    let stopped := (s.ctx? k.ctx).any fun c => c.status == .stopped
    if stopped then s
    else match s.guardOf k.uid k.guardSlot, s.team? k.uid with
      | .unresolved, _ => s
      | .false, _ => s.endCourier k
      | .true, none => s.endCourier k
      | .true, some t =>
        let s := s.updCourier k.id fun k => { k with state := .running, started := s.freeCtr }
        let p := k.plan s t
        match p.poison s with
        | some a => s.killPoisoned k.ctx (k.sourceVa s t a)
        | none =>
          if k.what.slot?.isSome ∨ p.err.isSome then p.demand s
          else p.apply ((p.demand s).updCourier k.id fun k => { k with begun := true }) k.uid (early s.freeCtr)

/-- SLOT_BYTES_LANDED: the next bytes of a .SLOT command land and change the tag (R108); with its last bytes, it completes, and its
embargo is released (R94, R105). Bytes that come from a poisoned sector kill the context (R380). -/
def State.slotLanded (s : State) (id bytes : Nat) : State :=
  match s.couriers.find? (·.id == id) with
  | none => s
  | some k =>
    match k.what.slot?, s.team? k.uid with
    | some (hdr, slot), some t =>
      let p := k.plan s t
      let b := min bytes (p.cells.length - k.landed)
      let q : Plan := { p with srcs := (p.srcs.drop k.landed).take b }
      if k.state ≠ .running ∨ p.err.isSome ∨ b = 0 then s
      else match q.poison s with
      | some a => s.killPoisoned k.ctx (k.sourceVa s t a)
      | none => match t.ring? hdr with
        | none => s.faultCourier k (slotStateInfo hdr)
        | some r =>
          let a := r.tagAt slot
          let tag := t.locWord a
          if tagState tag = 1 ∧ tagLap tag = r.parity slot ∧ b ≤ tagRemain tag then
            let left := tagRemain tag - b
            let new := if left = 0 then tagWord 0 (r.parity slot) 2 else tagWord left (r.parity slot) 1
            let s := p.apply s k.uid fun i => decide (k.landed ≤ i ∧ i < k.landed + b)
            let s := s.updTeam k.uid fun t => t.locWrite (cellsAt a (toBytes 4 new))
            if k.landed + b = p.cells.length then s.endCourier k
            else s.updCourier k.id fun k => { k with landed := k.landed + b }
          else s.faultCourier k (slotStateInfo hdr)
    | _, _ => s

/-- COURIER_COMMAND_COMPLETE: the rest of the bytes, and KVCOMMIT's length after them. -/
def State.courierComplete (s : State) (id : Nat) : State :=
  match s.couriers.find? (·.id == id) with
  | none => s
  | some k =>
    match s.team? k.uid with
    | none => s.endCourier k
    | some t =>
      let p := k.plan s t
      if k.state ≠ .running ∨ p.err.isSome then s
      else match p.poison s with
        | some a => s.killPoisoned k.ctx (k.sourceVa s t a)
        | none =>
          if k.what.slot?.isSome then s
          else
            let s := p.apply s k.uid fun i => !(k.begun && early k.started i)
            match k.what with
            | .kvcommit _ _ _ _ _ l mask lenVa =>
              match s.engWrite t k.ctx false lenVa (toBytes 4 (l + popcount 128 mask)) with
              | .ok cells => (s.homeWrite cells).endCourier k
              | .error i => s.faultCourier k i
            | _ => s.endCourier k

/-- COURIER_COMMAND_FAULT: a running command meets its first failing byte; what it has written stays, each byte written once (R94). -/
def State.courierFaults (s : State) (id : Nat) : State :=
  match s.couriers.find? (·.id == id) with
  | none => s
  | some k =>
    match s.team? k.uid with
    | none => s
    | some t =>
      let p := k.plan s t
      match k.state, p.err with
      | .running, some i => (if k.what.slot?.isSome || k.begun then s else p.apply s k.uid (early s.freeCtr)).faultCourier k i
      | _, _ => s

/-- A faulted command is settled as complete, with all its destination bytes unspecified (R97). -/
def State.skipCourier (s : State) (k : Courier) : State :=
  match s.team? k.uid with
  | none => s.endCourier k
  | some t => ((s.freePlan t k.ctx (k.dests t)).apply s k.uid fun _ => true).endCourier k

/-- A faulted command is issued again in full, at the tail of its queue (R97). DESIGN CHOICE: it samples its guard slot there, as a
new command does (log 89). -/
def State.retryCourier (s : State) (k : Courier) : State :=
  let k := { k with state := .held, landed := 0, begun := false, reported := false }
  { s with couriers := s.couriers.filter (·.id != k.id) ++ [k] }

/-- The fault of a command whose thread has exited goes to the fault handler team (R97). -/
def State.reportCouriers (s : State) (ks : List Courier) : State :=
  match ks with
  | [] => s
  | k :: rest =>
    State.reportCouriers (match k.state with
      | .faulted c i =>
        if k.reported || (s.thread? k.uid k.tid).isSome || !s.reportRoom k.ctx then s
        else (s.updCourier k.id fun k => { k with reported := true }).report k.ctx ⟨c, i, k.pc, .courier k.id⟩
      | _ => s) rest

end Sys2Proof.Machine
end

