-- ==== Sys2Proof/Machine/Matrix.lean ====
section
/-! DEFINITION. Tensor descriptor instructions and the matrix engine (R307 to R325; R190 to R192). -/

namespace Sys2Proof.Machine

/-! ## Reads of images and blocks from memory (R310, R322) -/

/-- TRAPINFO of a participant's read of n bytes at a virtual address that fails with a cause. -/
def imageErr (va : Issue → Nat × Thread → Nat) (n cause : Nat) (x : Issue) (lt : Nat × Thread) : Option Nat :=
  match x.s.readVa x.team.tlb x.grid.ctx (va x lt) n with
  | .ok _ => none
  | .error i => if xcause i = cause then some i else none

/-- The body after every participant's read has passed its checks. -/
def imageChecked (va : Issue → Nat × Thread → Nat) (n : Nat) (body : Issue → State → State × Out) :
    Issue → State → State × Out :=
  unlessRaised Cause.xlate (imageErr va n Cause.xlate)
    (unlessRaised Cause.permission (imageErr va n Cause.permission)
      (unlessRaised Cause.polderExpired (imageErr va n Cause.polderExpired) body))

/-- Bytes of an image that can be read. -/
def Issue.image (x : Issue) (va n : Nat) : List Byte :=
  match x.s.readVa x.team.tlb x.grid.ctx va n with
  | .ok bs => bs
  | .error _ => []

/-- The thread's earlier stores to n bytes have performed. -/
def Issue.imageReady (x : Issue) (s : State) (va : Issue → Nat × Thread → Nat) (n : Nat) : Bool :=
  x.parts.all fun lt => x.ownDone s lt (va x lt) n

/-- The participants' reads of n bytes at the home slices use their lines (R47). -/
def Issue.demandImages (x : Issue) (va : Issue → Nat × Thread → Nat) (n : Nat) (s : State) : State :=
  x.parts.foldl (fun s lt => s.demandVa x.team.tlb x.grid.ctx (va x lt) n) s

/-- The first participant's address whose image meets a poisoned sector. -/
def Issue.imagePoison (x : Issue) (s : State) (va : Issue → Nat × Thread → Nat) (n : Nat) : Option Nat :=
  (x.parts.find? fun lt => s.poisonedVa x.team.tlb x.grid.ctx (va x lt) n).map (va x)

/-! ## TDSET and TDGET (R310) -/

def Issue.tdInstall (x : Issue) (lt : Nat × Thread) : Option (Option Td) × Nat :=
  Machine.tdInstall x.grid.lrec.tdcount (x.a lt 32) (x.image (x.b lt 64) 32)

/-- Installs in reverse lane order, so that the lowest lane's write stands. -/
def tdsetBody (x : Issue) (s : State) : State × Out :=
  if !x.imageReady s (fun x lt => x.b lt 64) 32 then (s, .again)
  else match x.imagePoison s (fun x lt => x.b lt 64) 32 with
    | some va => (s.killPoisoned x.grid.ctx va, .handled)
    | none =>
      let s := x.parts.reverse.foldl (fun s lt => match (x.tdInstall lt).1 with
        | some e => s.updTeam x.team.uid fun t => { t with tds := t.tds.set (x.a lt 32) e }
        | none => s) (x.demandImages (fun x lt => x.b lt 64) 32 s)
      (x.write 32 (fun lt => (x.tdInstall lt).2) s, .go)

def execTdset (f : Fields) (s : State) := runWave 0xC0 f (imageChecked (fun x lt => x.b lt 64) 32 tdsetBody) s

def execTdget (f : Fields) (s : State) :=
  runWave 0xC1 f (computes 64 fun x lt => match x.team.td? (x.a lt 32) with
    | some td => if 3 < x.b lt 32 then 0 else td.word (x.b lt 32)
    | none => 0) s

/-! ## Issue checks (R312) -/

/-- A matrix command as it is written: opcode, FN, X21 and the values of A, B and C. -/
structure MxWord where
  op : Nat
  fn : Nat
  x21 : Nat
  a : Nat
  b : Nat
  c : Nat
  deriving DecidableEq, Repr

/-- Stored columns that hold logical columns from col0 on: the first, and how many (R309). -/
def Td.stored (td : Td) (col0 cols : Nat) : Nat × Nat := if td.sparse then (col0 / 2, cols / 2) else (col0, cols)

/-- The byte of the metadata of a group of a row. -/
def Td.metaByte (td : Td) (r g : Nat) : Nat := td.at (td.metaAt + r * ((td.cols + 7) / 8) + g / 2)

/-- Whether a weight format is one of R315. -/
def weightFmt (t : Ty) : Bool := [Ty.ps8, .e2m1, .e4m3, .e5m2, .i8, .bf16, .f16].contains t

/-- K of one block of R190. -/
def blockK (t : Ty) : Nat := if t = .bf16 ∨ t = .f16 then 16 else 32

/-- The plane limit on Kt. -/
def planeLimit (t : Ty) (sparse : Bool) : Nat := (if t = .bf16 ∨ t = .f16 then 64 else 128) * (if sparse then 2 else 1)

/-- Whether an activation format goes with a weight format. -/
def pairs (w a : Ty) : Bool :=
  if w = .ps8 then [Ty.e4m3, .e5m2, .e2m1].contains a
  else if w = .e4m3 ∨ w = .e5m2 then [Ty.e4m3, .e5m2].contains a
  else w == a

/-- Check 6: LOCAL_RANGE of a descriptor's tile. -/
def tileErr (t : Team) (acc : Access) (td : Td) (row0 col0 rows cols : Nat) : Option Nat :=
  sideErr t acc td.loc (td.ranges row0 col0 rows cols)

/-- The first parent that R317 refuses. -/
def parentErr (i : Nat) (l : List Int) : Bool :=
  match l with
  | [] => false
  | p :: rest => decide (p < -1 ∨ (i : Int) ≤ p) || parentErr (i + 1) rest

/-- The checks of R312, in order, on one command: cause and TRAPINFO, or what the engine will do. -/
def mxCheck (t : Team) (lrec : LaunchRec) (m : MxWord) : Except (Nat × Nat) MatrixOp :=
  let k := m.x21 % 64
  let bad := fun (d td : Nat) => Except.error (ε := Nat × Nat) (α := MatrixOp) (Cause.matrixFault, commandInfo d m.op td)
  let range := fun (e : Option Nat) (o : MatrixOp) => match e with
    | some i => Except.error (Cause.localRange, i)
    | none => Except.ok o
  let row0 := m.a % 2 ^ 32
  let col0 := m.a / 2 ^ 32
  let blo := m.b % 2 ^ 16
  let bhi := m.b / 2 ^ 16
  if !lrec.matrix then bad 1 0
  else if m.op = 0xC3 then .ok .swap
  else if m.op = 0xC5 then
    if m.b = 0 ∨ 512 < m.a + m.b then bad 6 0 else .ok (.zero m.a m.b)
  else if m.op = 0xC8 then
    if m.b = 0 ∨ 128 < m.b then bad 9 0
    else match localErr t .read row0 m.b with
      | some i => .error (Cause.localRange, i)
      | none =>
        let ps := (t.locBytes row0 m.b).map fun b => signed 8 b.toNat
        if parentErr 0 ps then bad 9 0 else .ok (.mask ps)
  else match t.tdErr lrec.tdcount k, t.td? k with
    | some d, _ => bad d k
    | none, none => bad 3 k
    | none, some td =>
      if m.op = 0xC2 then
        let kt := bhi
        if !weightFmt td.fmt || (td.loc && td.sparse) then bad 4 k
        else if blo = 0 ∨ 128 < blo ∨ kt = 0 ∨ planeLimit td.fmt td.sparse < kt ∨ !td.holds row0 col0 blo kt
            ∨ (td.scaled ∧ col0 % 32 ≠ 0) ∨ (td.sparse ∧ (col0 % 4 ≠ 0 ∨ kt % 4 ≠ 0)) ∨ (td.fmt = .e2m1 ∧ col0 % 2 ≠ 0) then bad 5 k
        else range (tileErr t .read td row0 col0 blo kt) (.loadw td row0 col0 blo kt)
      else if m.op = 0xC4 then
        if !td.loc || td.sparse then bad 4 k
        else if blo = 0 ∨ td.rows < blo then bad 5 k
        else if 512 < bhi + blo then bad 6 k
        else .ok (.stream td m.a m.b m.c (bit m.fn 0) (bit m.fn 1) (bit m.x21 6))
      else
        let nc := m.c % 2 ^ 16
        let acol := m.c / 2 ^ 16
        if td.sparse then bad 4 k
        else if !td.holds row0 col0 blo nc || !td.storable col0 nc then bad 5 k
        else if blo = 0 ∨ nc = 0 ∨ 512 < bhi + blo ∨ 128 < acol + nc then bad 6 k
        else range (tileErr t .write td row0 col0 blo nc)
          (.store td row0 col0 blo bhi nc acol ((Rnd.ofCode (m.fn % 4)).getD .rn) (bit m.fn 2))

/-! ## The queue (R314) -/

def State.engine (s : State) (uid : Nat) : Engine := (s.engines.find? (·.uid == uid)).getD { uid }

def State.setEngine (s : State) (e : Engine) : State :=
  { s with engines := s.engines.filter (·.uid != e.uid) ++ [e] }

def State.updMatrix (s : State) (id : Nat) (f : MatrixCmd → MatrixCmd) : State :=
  { s with matrix := updWhere (·.id == id) f s.matrix }

/-- Commands of a team that hold queue entries, in order. -/
def State.mxQueue (s : State) (uid : Nat) : List MatrixCmd := s.matrix.filter fun k => k.uid == uid && k.state != .held

/-- The embargo entries of a command (R103, R315, R320). -/
def MatrixOp.embargoes (o : MatrixOp) : List EmbargoReq :=
  let spans := fun (wr : Bool) (td : Td) (row col rows cols : Nat) =>
    let st := td.stored col cols
    let e := td.elemSpan row st.1 rows st.2
    let c := td.scaleSpan row col rows cols
    let m := if td.sparse then
        [(⟨wr, td.loc, td.metaByte row (col / 4), td.metaByte (row + rows - 1) ((col + cols - 1) / 4)⟩ : EmbargoReq)]
      else []
    [(⟨wr, td.loc, e.1, e.2⟩ : EmbargoReq)] ++ (if td.scaled then [(⟨wr, td.loc, c.1, c.2⟩ : EmbargoReq)] else []) ++ m
  match o with
  | .loadw td row col rows cols => spans false td row col rows cols
  | .store td row col m _ nc _ _ _ => spans true td row col m nc
  | _ => []

/-- What an MSTREAM reads in local memory: its ring's header, and its slot with the tag (R107, R318). -/
def Team.streamReads (t : Team) (handle : Nat) : List (Nat × Nat) :=
  (handle % 2 ^ 32, 32) :: match t.ring? (handle % 2 ^ 32) with
    | some r => [(r.tagAt (handle / 2 ^ 32), 4), (r.slotAt (handle / 2 ^ 32), r.slotBytes)]
    | none => []

/-- The ranges of a tile that a load reads: each row's stored elements, its scale bytes and its metadata (R309, R315). -/
def Td.loadRanges (td : Td) (row0 col0 rows cols : Nat) : List (Nat × Nat) :=
  let st := td.stored col0 cols
  (iota row0 rows).flatMap fun r =>
    let x := td.elemSpan r st.1 1 st.2
    let y := td.scaleSpan r col0 1 cols
    let z := (td.metaByte r (col0 / 4), td.metaByte r ((col0 + cols - 1) / 4))
    (x.1, x.2 - x.1 + 1) :: ((if td.scaled then [(y.1, y.2 - y.1 + 1)] else []) ++ (if td.sparse then [(z.1, z.2 - z.1 + 1)] else []))

/-- What a command reads: the space and the ranges. -/
def MatrixOp.reads (o : MatrixOp) (t : Team) : List (Bool × Nat × Nat) :=
  match o with
  | .loadw td row col rows cols => (td.loadRanges row col rows cols).map fun r => (td.loc, r)
  | .stream _ handle .. => (t.streamReads handle).map fun r => (true, r)
  | _ => []

/-- The thread's earlier stores to what the command reads have performed (R130). -/
def MatrixCmd.sourceReady (k : MatrixCmd) (s : State) : Bool :=
  (s.team? k.uid).all fun t => (k.what.reads t).all fun r =>
    if r.1 then !s.locBusy k.uid k.tid r.2.1 r.2.2
    else storesDone s (.range r.2.1 (r.2.1 + r.2.2)) .pk k.uid k.tid k.id

/-- A held command registers its embargoes and takes a queue entry, if it can; a thread's commands go in order, and those of one
instruction in the order of their lanes (R322). -/
def State.enterMatrix (s : State) (k : MatrixCmd) : Option State :=
  let es := k.what.embargoes
  let cluster := k.core / 4
  let earlier := s.matrix.any fun j => j.uid == k.uid && (j.tid == k.tid || j.instr == k.instr) && j.state == .held
    && decide (j.id < k.id)
  if !earlier && s.embargoRoom cluster es.length && decide ((s.mxQueue k.uid).length < 32) && k.sourceReady s then
    let rest := s.matrix.filter (·.id != k.id)
    some (({ s with matrix := rest ++ [{ k with state := .queued }] }).register cluster k.core k.uid k.tid k.ctx k.id es)
  else none

/-- A participant's command joins the held ones: its number. -/
def Issue.holdMatrix (x : Issue) (lt : Nat × Thread) (m : MxWord) (what : MatrixOp) (s : State) : State :=
  let gs := if (m.op = 0xC2 ∨ m.op = 0xC4 ∨ m.op = 0xC6) ∧ 2 ^ 20 ≤ m.x21 then some (m.x21 / 2 ^ 16 % 16) else none
  let k : MatrixCmd := {
    id := s.seq, instr := x.s.seq, core := x.team.pkCore, uid := x.team.uid, tid := lt.2.tid, ctx := x.grid.ctx, gid := x.grid.gid,
    pc := x.pc.toNat, opcode := m.op, td := m.x21 % 64, what, guardSlot := gs, state := .held }
  ({ s with matrix := s.matrix ++ [k] }).tick

/-- A participant's command enters the queue, or its thread waits. -/
def Issue.issueMatrix (x : Issue) (lt : Nat × Thread) (m : MxWord) (what : MatrixOp) (s : State) : State :=
  let id := s.seq
  let s := x.holdMatrix lt m what s
  match s.matrix.getLast?.bind s.enterMatrix with
  | some s => s
  | none => x.block lt.2.tid (.matrix [id] 0 .unused) s

/-- The command of a participant's own word. -/
def Issue.mxWord (x : Issue) (lt : Nat × Thread) : MxWord :=
  let wide := x.op = 0xC2 ∨ x.op = 0xC4 ∨ x.op = 0xC6 ∨ x.op = 0xC8
  ⟨x.op, x.f.fn.toNat, x.f.x21.toNat, x.a lt (if wide then 64 else 32), x.b lt 32, x.c lt 32⟩

/-- TRAPINFO of a check that fails with a cause; of a MATRIX_FAULT, with one of some DETAILs. -/
def mxErr (cause : Nat) (details : List Nat) (x : Issue) (lt : Nat × Thread) : Option Nat :=
  match mxCheck x.team x.grid.lrec (x.mxWord lt) with
  | .error e => if e.1 = cause ∧ (cause ≠ Cause.matrixFault ∨ details.contains (bits e.2 48 8)) then some e.2 else none
  | .ok _ => none

/-- The parents of an MMASK wait for the thread's earlier local stores (R317). -/
def Issue.maskWaits (x : Issue) (s : State) : Bool :=
  x.op == 0xC8 && x.parts.any fun lt => s.locBusy x.team.uid lt.2.tid (x.a lt 64 % 2 ^ 32) (x.b lt 32)

def mxBody (x : Issue) (s : State) : State × Out :=
  (x.parts.foldl (fun s lt => match mxCheck x.team x.grid.lrec (x.mxWord lt) with
    | .ok o => x.issueMatrix lt (x.mxWord lt) o s
    | .error _ => s) s, .go)

/-- The checks of the participants, check by check (R274, R312): the details of each number. MMASK's parents come last, once they
can be read. -/
def mxChecked : Issue → State → State × Out :=
  [[1], [2, 3], [4], [5], [6]].foldr (fun ds body => unlessRaised Cause.matrixFault (mxErr Cause.matrixFault ds) body)
    fun x s => if x.maskWaits s then (s, .again)
      else unlessRaised Cause.matrixFault (mxErr Cause.matrixFault [9])
        (unlessRaised Cause.localRange (mxErr Cause.localRange []) mxBody) x s

def execMloadw (f : Fields) (s : State) := runWave 0xC2 f mxChecked s
def execMswap (f : Fields) (s : State) := runWave 0xC3 f mxChecked s
def execMstream (f : Fields) (s : State) := runWave 0xC4 f mxChecked s
def execMzero (f : Fields) (s : State) := runWave 0xC5 f mxChecked s
def execMstore (f : Fields) (s : State) := runWave 0xC6 f mxChecked s
def execMmask (f : Fields) (s : State) := runWave 0xC8 f mxChecked s

/-- A held command goes in when it can; its thread goes on once none of those it waits for is held. -/
def State.settleHeldMatrix (s : State) (k : MatrixCmd) : State := (s.enterMatrix k).getD s

def State.settleMatrixWait (s : State) (uid : Nat) (th : Thread) (cmds : List Nat) (count : Nat) (d : Operand) : State :=
  if s.matrix.any fun k => cmds.contains k.id && k.state == .held then s
  else (if count = 0 then s else s.give uid th.tid d 32 count).wake uid th.tid

/-! ## MXOP (R322) -/

/-- TRAPINFO of a check of the matrix share. -/
def shareErr (x : Issue) (_ : Nat × Thread) : Option Nat :=
  if x.grid.lrec.matrix then none else some (commandInfo 1 x.op 0)

/-- How many bytes of the block are read: none at a misaligned address, the header alone where it is bad. -/
def Issue.blockLen (x : Issue) (lt : Nat × Thread) : Nat :=
  let va := x.a lt 64
  if va % 32 ≠ 0 then 0
  else
    let h := x.image va 32
    let n := field h 0 4
    if n = 0 ∨ 16 < n ∨ (h.drop 4).any (· != 0) then 32 else 32 + 32 * n

/-- TRAPINFO of the block's read: the header, then the rest. -/
def blockErr (cause : Nat) (x : Issue) (lt : Nat × Thread) : Option Nat :=
  if x.a lt 64 % 32 ≠ 0 then none
  else match x.s.readVa x.team.tlb x.grid.ctx (x.a lt 64) (x.blockLen lt) with
    | .ok _ => none
    | .error i => if xcause i = cause then some i else none

/-- The word of an entry. -/
def entryWord (e : List Byte) : MxWord :=
  let ctl := field e 0 4
  let op := ctl % 256
  let a := field e 8 8
  ⟨op, bits ctl 8 3, ctl / 2 ^ 11, if op = 0xC5 then a % 2 ^ 32 else a, field e 16 4, field e 20 4⟩

/-- Whether a value that the opcode does not use is zero. -/
def unusedZero (sp : FSpec) (v : Nat) : Bool :=
  match sp with
  | .unused => v == 0
  | _ => true

/-- The field rules on an entry (R311, R213, R204). -/
def entryFormOk (t : Team) (e : List Byte) : Bool :=
  let m := entryWord e
  match form m.op with
  | none => false
  | some fm =>
    let sp := fm.specs m.fn {} false
    [0xC2, 0xC3, 0xC4, 0xC5, 0xC6, 0xC8].contains m.op && field e 4 4 == 0 && field e 24 8 == 0 && fm.fnOk m.fn
      && (fm.x21Err m.fn {} m.x21).isNone && unusedZero sp.a (field e 8 8) && unusedZero sp.b m.b && unusedZero sp.c m.c
      && (m.x21 < 2 ^ 20 || decide (m.x21 / 2 ^ 16 % 16 < t.guards.length))

/-- The entries' commands, or the index of the first that fails. -/
def entryOps (t : Team) (lrec : LaunchRec) (k : Nat) (es : List (List Byte)) : Except Nat (List (MxWord × MatrixOp)) :=
  match es with
  | [] => .ok []
  | e :: rest =>
    if !entryFormOk t e then .error k
    else match mxCheck t lrec (entryWord e) with
      | .error _ => .error k
      | .ok o => match entryOps t lrec (k + 1) rest with
        | .error i => .error i
        | .ok l => .ok ((entryWord e, o) :: l)

/-- A participant's block: the commands, or the REASON of BAD_BLOCK. -/
def Issue.mxBlock (x : Issue) (lt : Nat × Thread) : Except Nat (List (MxWord × MatrixOp)) :=
  let n := x.blockLen lt
  if n ≤ 32 then .error 0xFF
  else
    let b := x.image (x.a lt 64) n
    entryOps x.team x.grid.lrec 0 ((iota 0 ((n - 32) / 32)).map fun e => (b.drop (32 + 32 * e)).take 32)

/-- A block issues: its thread leaves its wave while its commands enter, and comes back through a mere. -/
def Issue.mxopOne (x : Issue) (s : State) (lt : Nat × Thread) : State :=
  match x.mxBlock lt with
  | .error r => x.give lt 32 (statusWord 0x0F r) s
  | .ok ms =>
    let first := s.seq
    let s := ms.foldl (fun s m => x.holdMatrix lt m.1 m.2 s) s
    (x.block lt.2.tid (.matrix (iota first ms.length) ms.length (x.dst lt)) s).updThread x.team.uid lt.2.tid fun th =>
      { th with blocked := th.blocked.map fun b => { b with seat := none } }

/-- The thread's stores to the block, and its local ones, have performed. -/
def blockReady (x : Issue) (s : State) (lt : Nat × Thread) : Bool :=
  x.ownDone s lt (x.a lt 64) 32 && x.ownDone s lt (x.a lt 64) (x.blockLen lt)
    && !(s.deferred.any fun d => d.uid == x.team.uid && d.tid == lt.2.tid && d.loc)

def mxopBody (x : Issue) (s : State) : State × Out :=
  match x.parts.find? fun lt => s.poisonedVa x.team.tlb x.grid.ctx (x.a lt 64) (x.blockLen lt) with
    | some lt => (s.killPoisoned x.grid.ctx (x.a lt 64), .handled)
    | none => (x.parts.foldl x.mxopOne (x.parts.foldl (fun s lt =>
        s.demandVa x.team.tlb x.grid.ctx (x.a lt 64) (x.blockLen lt)) s), .go)

def execMxop (f : Fields) (s : State) :=
  runWave 0xCA f (unlessRaised Cause.matrixFault shareErr (whenReady blockReady
    (unlessRaised Cause.xlate (blockErr Cause.xlate)
      (unlessRaised Cause.permission (blockErr Cause.permission)
        (unlessRaised Cause.polderExpired (blockErr Cause.polderExpired) mxopBody))))) s

/-! ## Running a command -/

/-- The faulted command of a team. -/
def State.mxFault (s : State) (uid : Nat) : Option (MatrixCmd × Nat) :=
  (s.mxQueue uid).findSome? fun k => match k.state with
    | .faulted _ i => some (k, i)
    | _ => none

/-- A list's results in order, until one fails. -/
def collect {α β : Type} (f : α → Except Nat β) (l : List α) : Except Nat (List β) :=
  match l with
  | [] => .ok []
  | a :: rest =>
    match f a with
    | .error i => .error i
    | .ok b => match collect f rest with
      | .error i => .error i
      | .ok bs => .ok (b :: bs)

/-- One row of weights: element codes by column of the tile. -/
def Td.rowCodes (td : Td) (rd : Reader) (metaInfo r col0 kt : Nat) : Except Nat (List (Nat × Nat)) :=
  let code := fun (st : Nat) => match rd (td.elemAt r st).1 (td.elemAt r st).2 with
    | .error i => Except.error i
    | .ok cs => Except.ok (td.code st (cs.map fun (c : Host.Cell) => c.2))
  if td.sparse then
    match collect (fun g => match rd (td.metaByte r g) 1 with
      | .error i => .error i
      | .ok cs =>
        let nib := bits (ofBytes (cs.map (·.2))) (4 * (g % 2)) 4
        if nib / 4 ≤ nib % 4 then .error metaInfo
        else match code (2 * g), code (2 * g + 1) with
          | .ok x, .ok y => .ok [(4 * g + nib % 4 - col0, x), (4 * g + nib / 4 - col0, y)]
          | .error i, _ => .error i
          | _, .error i => .error i) (iota (col0 / 4) (kt / 4)) with
    | .error i => .error i
    | .ok l => .ok (l.flatMap id)
  else collect (fun c => match code (col0 + c) with
    | .error i => .error i
    | .ok x => .ok (c, x)) (iota 0 kt)

/-- The plane that an MLOADW loads, or TRAPINFO. -/
def loadPlane (s : State) (t : Team) (ctx tdk : Nat) (td : Td) (row0 col0 n kt : Nat) : Except Nat Plane :=
  let rd := s.engRead t ctx td.loc
  let rows := collect (fun r => match td.rowCodes rd (commandInfo 0xB 0xC2 tdk) (row0 + r) col0 kt with
    | .error i => .error i
    | .ok l => .ok (l.map fun e => (256 * r + e.1, e.2))) (iota 0 n)
  let scales := if td.scaled then
      collect (fun r => collect (fun b => match rd (td.scaleAt (row0 + r) (col0 + 32 * b)) 1 with
        | .error i => .error i
        | .ok cs => .ok (256 * r + b, ofBytes (cs.map (·.2)))) (iota 0 ((kt + 31) / 32))) (iota 0 n)
    else .ok []
  match rows, scales with
  | .error i, _ => .error i
  | .ok _, .error i => .error i
  | .ok es, .ok sc => .ok {
      fmt := td.fmt, n, k := kt, sparse := td.sparse, scaled := td.scaled, elems := es.flatMap id, scales := sc.flatMap id }

/-- The first global range of a command that meets a poisoned sector (R380). -/
def MatrixOp.poison (o : MatrixOp) (s : State) (t : Team) (ctx : Nat) : Option Nat :=
  ((o.reads t).find? fun r => !r.1 && s.poisonedVa t.engTlb ctx r.2.1 r.2.2).map fun r => r.2.1

/-- The command's reads at the home slices use their lines (R47). -/
def MatrixOp.demand (o : MatrixOp) (s : State) (t : Team) (ctx : Nat) : State :=
  ((o.reads t).filter fun r => !r.1).foldl (fun s r => s.demandVa t.engTlb ctx r.2.1 r.2.2) s

/-- A weight's value: none where it is pruned. -/
def Plane.weight (p : Plane) (j k : Nat) : Option FVal :=
  (p.elems.find? fun (e : Nat × Nat) => e.1 == 256 * j + k).map fun e =>
    scaledValue p.fmt e.2 (if p.scaled then (p.scales.find? fun (x : Nat × Nat) => x.1 == 256 * j + k / 32).map fun x => x.2
      else none)

/-- The exact sum of one block: pruned positions contribute zero. -/
def blockSum (p : Plane) (row : List FVal) (j k0 : Nat) : FVal :=
  let n := min (blockK p.fmt) (p.k - k0)
  sumTerms .rn ((iota k0 n).map fun k => match p.weight j k with
    | some w => ((row[k]?).getD (.fin false 0 0)).mul w
    | none => .fin false 0 0)

/-- Whether an FP32 code is a non-zero subnormal. -/
def subnormal32 (c : Nat) : Bool := bits c 23 8 == 0 && c % 2 ^ 23 != 0

/-- R190 on one output element: the accumulator after, and whether a result was subnormal on the way (R192). -/
def accumulate (p : Plane) (row : List FVal) (j : Nat) (ks : List Nat) (acc : Nat × Bool) : Nat × Bool :=
  match ks with
  | [] => acc
  | k0 :: rest =>
    let b := (blockSum p row j k0).round .f32 .rn false
    let a := ((FVal.decode .f32 b).add .rn (.decode .f32 acc.1)).round .f32 .rn false
    accumulate p row j rest (a, acc.2 || subnormal32 b || subnormal32 a)

/-- The nodes that a node sees: itself and its ancestors (R317). -/
def ancestors (parents : List Int) (fuel q : Nat) : List Nat :=
  match fuel with
  | 0 => [q]
  | fuel + 1 =>
    match (parents[q]?).getD (-1) with
    | .ofNat p => q :: ancestors parents fuel p
    | .negSucc _ => [q]

/-- Whether the tree mask lets row node q see key node k (R318). -/
def visible (parents : List Int) (q k : Int) : Bool :=
  decide (k < 0) || (decide (0 ≤ q ∧ q < parents.length ∧ k < parents.length)
    && (ancestors parents parents.length q.toNat).contains k.toNat)

/-- The checks of R318 after the slot is taken: the fault's DETAIL, or the stream. -/
def streamRun (t : Team) (e : Engine) (td : Td) (handle b c : Nat) (zero tmask keep : Bool) : Nat ⊕ StreamRun :=
  let rows := b % 2 ^ 16
  match t.ring? (handle % 2 ^ 32) with
  | none => .inl 8
  | some r =>
    let slot := handle / 2 ^ 32
    let a := r.slotAt slot
    let last := td.base + (rows - 1) * td.stride + td.storedLen
    let lastScale := td.scale + rows * ((td.cols + 31) / 32)
    if r.slotBytes < last ∨ (td.scaled ∧ r.slotBytes < lastScale) then .inl 8
    else match e.active with
      | none => .inl 0xC
      | some p =>
        if !pairs p.fmt td.fmt || td.cols != p.k then .inl 7
        else if tmask ∧ e.parents = [] then .inl 0xA
        else .inr {
          ring := r, slot, plane := p, td := (td.1 + BitVec.ofNat 64 a, td.2.1, td.2.2.1 + BitVec.ofNat 64 a, td.2.2.2),
          rows, arow := b / 2 ^ 16, qn := signed 16 (c % 2 ^ 16), kn := signed 16 (c / 2 ^ 16), zero, tmask, keep }

/-- The activations of a row. -/
def StreamRun.row (r : StreamRun) (t : Team) (i : Nat) : List FVal :=
  (readAll (fun c => r.td.read (fun a n => .ok (cellsAt a (t.locBytes a n))) i c) (iota 0 r.plane.k)).1

/-- One row of a stream: the accumulators' new values by column, and whether the CCC is needed. -/
def StreamRun.rowResult (r : StreamRun) (t : Team) (e : Engine) (i : Nat) : List (Nat × Word) × Bool :=
  let row := r.row t i
  let size := blockK r.plane.fmt
  let ks := (iota 0 ((r.plane.k + size - 1) / size)).map (· * size)
  let outs := (iota 0 r.plane.n).map fun j =>
    let key := 128 * (r.arow + i) + j
    if r.tmask && !visible e.parents (r.qn + i) (r.kn + j) then (key, 0xFF800000, false)
    else
      let a := accumulate r.plane row j ks (if r.zero then 0 else (Sparse.get 0 e.acc key).toNat, false)
      (key, a.1, a.2)
  (outs.map fun o => (o.1, BitVec.ofNat 32 o.2.1), outs.any (·.2.2))

/-- Rows from one number to another, accumulated. -/
def StreamRun.accRows (r : StreamRun) (t : Team) (e : Engine) (is : List Nat) : Engine :=
  match is with
  | [] => e
  | i :: rest => r.accRows t { e with acc := Sparse.putAll 0 e.acc (r.rowResult t e i).1 } rest

/-- The rows from the engine's count on that need no assist, up to the first that does. -/
def StreamRun.plainRows (r : StreamRun) (t : Team) (e : Engine) (is : List Nat) : Nat :=
  match is with
  | [] => 0
  | i :: rest => if (r.rowResult t e i).2 then 0 else 1 + r.plainRows t e rest

/-- What the checks at an MSTREAM's start find. -/
def MatrixCmd.streamRun? (k : MatrixCmd) (s : State) (t : Team) : Option (Nat ⊕ StreamRun) :=
  match k.what with
  | .stream td handle b c zero tmask keep => some (streamRun t (s.engine k.uid) td handle b c zero tmask keep)
  | _ => none

/-- What an MSTORE writes. -/
def MatrixCmd.storePlan (k : MatrixCmd) (s : State) (t : Team) : Plan :=
  match k.what with
  | .store td row0 col0 m arow nc acol rnd sat =>
    let e := s.engine k.uid
    let ws := (iota 0 m).flatMap fun i =>
      let vs := (iota 0 nc).map fun j => FVal.decode .f32 (Sparse.get 0 e.acc (128 * (arow + i) + acol + j)).toNat
      td.rowWrites rnd sat (td.kept (s.engRead t k.ctx td.loc) (row0 + i) col0) (row0 + i) col0 vs
    (planWrites s t k.ctx td.loc ws).settle s
  | _ => {}

/-- TRAPINFO of the fault that a running command has. -/
def MatrixCmd.fault? (k : MatrixCmd) (s : State) (t : Team) : Option Nat :=
  match k.what with
  | .loadw td row0 col0 n kt => match loadPlane s t k.ctx k.td td row0 col0 n kt with
    | .error i => some i
    | .ok _ => none
  | .stream .. => match k.run with
    | some (.inl d) => some (commandInfo d 0xC4 k.td)
    | _ => none
  | .store .. => (k.storePlan s t).err
  | _ => none

def MatrixCmd.isStream (k : MatrixCmd) : Bool :=
  match k.what with
  | .stream .. => true
  | _ => false

def MatrixCmd.isLoad (k : MatrixCmd) : Bool :=
  match k.what with
  | .loadw .. => true
  | _ => false

/-- The resident matrix team of a core. -/
def State.matrixTeam (s : State) (core : Nat) : Option Team :=
  s.teams.find? fun t => t.status == .resident && t.pkCore == core && (s.grid? t.gid).any (·.lrec.matrix)

/-- An MSTREAM takes its slot when it is FULL and its lap matches (R108, R318); a ring that breaks R107 has none to take. -/
def MatrixCmd.takeSlot (k : MatrixCmd) (s : State) (t : Team) : Option State :=
  match k.what with
  | .stream _ handle .. =>
    if k.taken then some s
    else match t.ring? (handle % 2 ^ 32) with
      | none => some s
      | some _ =>
        match t.slotOp handle .take with
        | some r => some ((s.updTeam k.uid fun _ => r.1).updMatrix k.id fun k => { k with taken := true })
        | none => none
  | _ => some s

/-- Whether a command may start while the ones ahead of it have not completed (R314). -/
def MatrixCmd.mayOverlap (k : MatrixCmd) (s : State) (ahead : List MatrixCmd) : Bool :=
  ahead.all fun a => a.isStream && if k.isStream then a.state == .running else k.isLoad && s.guardOf a.uid a.guardSlot == .true

/-- A command ends: its embargoes go, and its destinations wait for its thread's MWAIT (R323). -/
def State.endMatrix (s : State) (k : MatrixCmd) : State :=
  let spans := match k.what with
    | .store .. => k.what.embargoes.map fun e => (⟨e.loc, e.lo, e.hi - e.lo + 1⟩ : Span)
    | _ => []
  (({ s with matrix := s.matrix.filter (·.id != k.id) }).unregister k.id).updThread k.uid k.tid fun th =>
    { th with mwaitSpans := th.mwaitSpans ++ spans }

/-- A restarted command registers fresh embargoes (R105); none while there is no room. -/
def State.reregister (s : State) (k : MatrixCmd) : Option State :=
  let es := k.what.embargoes
  if es = [] ∨ s.embargoes.any (fun e => e.cmd == k.id) then some s
  else if s.embargoRoom (k.core / 4) es.length then some (s.register (k.core / 4) k.core k.uid k.tid k.ctx k.id es)
  else none

/-- The first queued command that may start now, with the commands ahead of it. -/
def nextStart (s : State) (ahead : List MatrixCmd) (ks : List MatrixCmd) : Option MatrixCmd :=
  match ks with
  | [] => none
  | k :: rest =>
    if k.state = .queued ∧ k.mayOverlap s ahead
      ∧ (s.guardOf k.uid k.guardSlot ≠ .true ∨ ((s.team? k.uid).any fun t => (k.takeSlot s t).isSome)) then some k
    else nextStart s (ahead ++ [k]) rest

/-- MATRIX_COMMAND_START: a command samples its guard, and starts or is discarded (R100, R314); one that has started never samples
it again. -/
def State.matrixStart (s : State) (core : Nat) : State :=
  match s.matrixTeam core with
  | none => s
  | some t =>
    let e := s.engine t.uid
    if e.stopped ∨ e.assist ∨ ((s.ctx? (s.ctxOf t)).any fun c => c.status == .stopped) then s
    else match nextStart s [] (s.mxQueue t.uid) with
      | none => s
      | some k =>
        match s.guardOf k.uid k.guardSlot with
        | .unresolved => s
        | .false => s.endMatrix k
        | .true =>
          match (s.reregister k).bind fun s => (s.team? k.uid).bind fun t => k.takeSlot s t with
          | none => s
          | some s =>
            let run := (s.team? k.uid).bind fun t => k.streamRun? s t
            let s := s.updMatrix k.id fun k => { k with state := .running, started := s.freeCtr, guardSlot := none, run }
            match k.what.poison s t k.ctx with
            | some a => s.killPoisoned k.ctx a
            | none => match k.what with
              | .store .. =>
                let p := k.storePlan s t
                if p.err.isSome then s else p.apply s k.uid (early s.freeCtr)
              | _ => k.what.demand s t k.ctx

/-- One of the running commands of a list, the choice free where there are several. -/
def State.pick {α : Type} (s : State) (k : List Nat) (l : List α) : Option α :=
  match l with
  | [] => none
  | [a] => some a
  | a :: rest => ((a :: rest)[s.choose k (rest.length + 1)]?).orElse fun _ => some a

/-- Running commands that may complete or fault now: the head of the queue, and a load behind streams. -/
def State.mxRunning (s : State) (uid : Nat) : List MatrixCmd :=
  match s.mxQueue uid with
  | [] => []
  | k :: rest => (k :: rest.filter (·.isLoad)).filter (·.state == .running)

/-- The slot of a stream that has ended: EMPTY with the lap flipped, unless it is kept. -/
def StreamRun.freeSlot (r : StreamRun) (t : Team) : Team :=
  if r.keep then t
  else match (SlotOp.done).next r.ring.slotBytes (r.ring.parity r.slot) (t.locWord (r.ring.tagAt r.slot)) with
    | some (.inr tag) => t.locWrite (cellsAt (r.ring.tagAt r.slot) (toBytes 4 tag))
    | _ => t

/-- A stream runs to its end. -/
def State.endStream (s : State) (t : Team) (k : MatrixCmd) (r : StreamRun) : State :=
  let e := s.engine k.uid
  let s := s.setEngine { r.accRows t e (iota e.rows (r.rows - e.rows)) with rows := 0 }
  (s.updTeam k.uid r.freeSlot).endMatrix k

/-- A command that has no fault reaches its completion point; a stream that needs the CCC hands its tile over (R192). -/
def State.completeMatrix (s : State) (t : Team) (k : MatrixCmd) : State :=
  let e := s.engine k.uid
  match k.what with
  | .loadw td row0 col0 n kt => match loadPlane s t k.ctx k.td td row0 col0 n kt with
    | .ok p => (s.setEngine { e with shadow := some p }).endMatrix k
    | .error _ => s
  | .swap => (s.setEngine { e with active := e.shadow, shadow := e.active }).endMatrix k
  | .zero row count =>
    (s.setEngine { e with acc := e.acc.filter fun a => decide (a.1 < 128 * row ∨ 128 * (row + count) ≤ a.1) }).endMatrix k
  | .mask ps => (s.setEngine { e with parents := ps }).endMatrix k
  | .store .. => ((k.storePlan s t).apply s k.uid fun i => !early k.started i).endMatrix k
  | .stream .. => match k.run with
    | some (.inr r) =>
      let left := iota e.rows (r.rows - e.rows)
      if r.plainRows t e left < left.length then s.setEngine { e with assist := true } else s.endStream t k r
    | _ => s

/-- MATRIX_COMMAND_COMPLETE; a load that meets a poisoned sector kills its context (R380). -/
def State.matrixComplete (s : State) (core : Nat) : State :=
  match s.matrixTeam core with
  | none => s
  | some t =>
    if (s.engine t.uid).stopped ∨ (s.engine t.uid).assist then s
    else match s.pick [11] ((s.mxRunning t.uid).filter fun k => (k.fault? s t).isNone) with
      | none => s
      | some k => match k.what.poison s t k.ctx with
        | some a => s.killPoisoned k.ctx a
        | none => s.completeMatrix t k

/-- ASSIST_COMPLETE: the CCC has written the tile, and the core's counter counts the command (R192). -/
def State.assistComplete (s : State) (core : Nat) : State :=
  match s.matrixTeam core with
  | none => s
  | some t =>
    if !(s.engine t.uid).assist then s
    else match (s.mxQueue t.uid).head? with
      | none => s
      | some k => match k.run with
        | some (.inr r) =>
          let s := s.setEngine { s.engine t.uid with assist := false }
          { s.endStream t k r with assists := Sparse.put 0 s.assists core (Sparse.get 0 s.assists core + 1) }
        | _ => s.setEngine { s.engine t.uid with assist := false }

/-- A stream that runs when operand feeding stops is cut after some of its rows (R323). -/
def State.cutStream (s : State) (t : Team) : State :=
  match (s.mxQueue t.uid).head? with
  | none => s
  | some k => if k.state ≠ .running then s else match k.run with
    | some (.inr r) =>
      let e := s.engine t.uid
      let n := r.plainRows t e (iota e.rows (r.rows - e.rows))
      let m := if n = 0 then 0 else s.choose [12] n
      s.setEngine { r.accRows t e (iota e.rows m) with rows := e.rows + m }
    | _ => s

/-- MATRIX_COMMAND_FAULT: a running command faults; the queue stops, and a running stream is cut (R323). -/
def State.matrixFault (s : State) (core : Nat) : State :=
  match s.matrixTeam core with
  | none => s
  | some t =>
    if (s.engine t.uid).stopped ∨ (s.engine t.uid).assist then s
    else match s.pick [11] ((s.mxRunning t.uid).filter fun k => (k.fault? s t).isSome) with
      | none => s
      | some k => match k.fault? s t with
        | none => s
        | some i =>
          let s := s.cutStream t
          let s := match k.what with
            | .loadw .. => s.setEngine { s.engine t.uid with shadow := none }
            | .store .. => (k.storePlan s t).apply s k.uid (early s.freeCtr)
            | _ => s
          let s := s.setEngine { s.engine t.uid with stopped := true, late := t.threads.isEmpty }
          (s.updMatrix k.id fun k => { k with state := .faulted Cause.matrixFault i }).unregister k.id

/-! ## Restart and settlement (R323, R325) -/

/-- The queue of a team restarts: the faulted command runs again from its start. -/
def State.restartMatrix (s : State) (uid : Nat) : State :=
  let e := s.engine uid
  if !e.stopped then s
  else
    let s := s.setEngine { e with stopped := false, reported := false }
    let requeue := fun (k : MatrixCmd) => match k.state with
      | .faulted .. => { k with state := .queued }
      | _ => k
    { s with matrix := updWhere (fun k => k.uid == uid) requeue s.matrix }

/-- The faulted command counts as complete, its destination unspecified (an MSTREAM's accumulators, an MSTORE's bytes); the
queue restarts. -/
def State.skipMatrix (s : State) (uid : Nat) : State :=
  match s.mxFault uid, s.team? uid with
  | some (k, _), some t =>
    let e := s.engine uid
    let s := match k.what with
      | .store td row0 col0 m _ nc .. =>
        (s.freePlan t k.ctx ((td.ranges row0 col0 m nc).map fun r => (td.loc, r))).apply s uid fun _ => true
      | .stream _ _ b .. =>
        let n := (e.active.map fun (p : Plane) => p.n).getD 128
        let ws := (iota (b / 2 ^ 16) (b % 2 ^ 16)).flatMap fun r => (iota 0 n).map fun j =>
          (128 * r + j, BitVec.ofNat 32 (s.freeNat [2, uid, r, j]))
        s.setEngine { e with acc := Sparse.putAll 0 e.acc ws, rows := 0 }
      | _ => s
    (s.endMatrix k).restartMatrix uid
  | _, _ => s.restartMatrix uid

def mresumeBody (x : Issue) (s : State) : State × Out :=
  (if x.parts = [] then s else s.restartMatrix x.team.uid, .go)

def execMresume (f : Fields) (s : State) := runWave 0xCB f (unlessRaised Cause.matrixFault shareErr mresumeBody) s

/-- Pre-emption and swap-out drain the engine: a running stream is cut, a running load or store has not started (R325). -/
def State.drainEngine (s : State) (uid : Nat) : State :=
  match s.team? uid with
  | none => s
  | some t =>
    let s := if (s.engine uid).stopped then s else s.cutStream t
    let unstart := fun (k : MatrixCmd) => if k.state = .running ∧ !k.isStream then { k with state := .queued } else k
    { s with matrix := updWhere (fun k => k.uid == uid) unstart s.matrix }

/-! ## MWAIT and MSTAT (R323, R324) -/

/-- TRAPINFO of a stopped command of the thread. -/
def State.mwaitFault (s : State) (uid tid : Nat) : Option Nat :=
  match s.mxFault uid with
  | some (k, i) => if k.tid = tid ∧ (s.engine uid).stopped then some i else none
  | none => none

def mwaitErr (x : Issue) (lt : Nat × Thread) : Option Nat := x.s.mwaitFault x.team.uid lt.2.tid

/-- The thread's matrix commands that are not complete. -/
def State.mxUnfinished (s : State) (uid tid : Nat) : Nat := (s.matrix.filter fun k => k.uid == uid && k.tid == tid).length

/-- An MWAIT that is over, as few enough commands are left: with its acquire and its result (R323). -/
def State.mwaitOver (s : State) (t : Team) (th : Thread) (n : Nat) (d : Operand) : Option State :=
  let left := s.mxUnfinished t.uid th.tid
  if left ≤ n ∨ 32 ≤ n then
    let s := (s.acquireSpans t th.mwaitSpans).updThread t.uid th.tid fun th => { th with mwaitSpans := [] }
    some (s.give t.uid th.tid d 32 left)
  else none

def State.settleMwait (s : State) (t : Team) (th : Thread) (n : Nat) (d : Operand) : State :=
  match s.mwaitFault t.uid th.tid, s.mwaitOver t th n d with
  | some i, _ => s.trapAlone t.uid th.tid Cause.matrixFault i
  | none, some s => s.wake t.uid th.tid
  | none, none => s

/-- MWAIT of one participant: it goes on where its wait is over, and waits where it is not (R159). -/
def Issue.mwaitOne (x : Issue) (s : State) (lt : Nat × Thread) : State :=
  let n := x.a lt 32
  (s.mwaitOver x.team lt.2 n (x.dst lt)).getD (x.block lt.2.tid (.mwait n x.f.mods.sc (x.dst lt)) s)

def mwaitBody (x : Issue) (s : State) : State × Out := (x.parts.foldl x.mwaitOne s, .go)

def execMwait (f : Fields) (s : State) := runWave 0xC7 f (unlessRaised Cause.matrixFault mwaitErr mwaitBody) s

/-- MSTAT's engine word (R324). -/
def State.mstat (s : State) (uid : Nat) : Nat :=
  let e := s.engine uid
  let q := s.mxQueue uid
  let cut := e.stopped && q.any fun k => k.isStream && k.state == .running
  let f := s.mxFault uid
  e.stopped.toNat * 2 ^ 63 + cut.toNat * 2 ^ 62
    + ((f.map fun k => k.1.opcode).getD 0) * 2 ^ 48 + ((f.map fun k => k.1.tid).getD 0) * 2 ^ 38
    + min q.length 63 * 2 ^ 32 + (if cut then e.rows else 0)

def execMstat (f : Fields) (s : State) :=
  runWave 0xC9 f (computes 64 fun x lt =>
    if x.a lt 32 = 0 then (if x.grid.lrec.matrix then x.s.mstat x.team.uid else 0)
    else if x.a lt 32 = 1 then Sparse.get 0 x.s.assists x.team.pkCore % 2 ^ 64
    else 0) s

/-! ## Reports and the end of a team (R314, R323) -/

/-- Reports the fault of a stopped queue whose faulted command's issuer has exited; where the queue stood stopped as the team's last
thread exited, its commands are discarded (R314). -/
def State.reportMatrix (s : State) (uid : Nat) : State :=
  let e := s.engine uid
  match s.mxFault uid with
  | none => s
  | some (k, i) =>
    if !e.stopped || (s.thread? uid k.tid).isSome then s
    else
      let empty := (s.team? uid).all (·.threads.isEmpty)
      let s := if e.reported || !s.reportRoom k.ctx then s
        else (s.setEngine { e with reported := true }).report k.ctx ⟨Cause.matrixFault, i, k.pc, .matrix uid⟩
      if empty && !e.late && (s.engine uid).reported then (s.mxQueue uid).foldl (fun s k => s.endMatrix k) s else s

end Sys2Proof.Machine
end

