-- ==== Sys2Proof/Machine/Sched.lean ====
section
/-! DEFINITION. Launch records, the launch unit, the dispatchers, swap and migration, REGGROW and REGSHRK, and the dead-letter
ring (R154, R338 to R341, R348 to R366). -/

namespace Sys2Proof.Machine

/-! ## Launch records (R348, R349) -/

/-- The fields of a record. -/
def parseLaunch (r : List Byte) : LaunchRec :=
  let flags := field r 30 1
  { entry := BitVec.ofNat 64 (field r 0 8), gx := field r 8 4, gy := field r 12 2, gz := field r 14 2,
    tx := field r 16 2, ty := field r 18 2, tz := field r 20 2, vregs := field r 22 2, locals := field r 24 4,
    guards := field r 28 1, tdcount := field r 29 1, prio := flags % 8, taskHost := bit flags 3, matrix := bit flags 4,
    parcels := (iota 0 (min 4 (field r 31 1))).map fun k => field r (64 + 4 * k) 4,
    mereAge := field r 32 2, ctx := field r 34 2, cwords := field r 36 4, cbank := field r 40 8, nextRec := field r 48 8,
    joinVa := field r 56 8 }

/-- What a team takes of its core (R154, R307). -/
structure Shape where
  threads : Nat
  vregs : Nat
  locals : Nat
  tds : Nat
  matrix : Bool
  deriving DecidableEq, Repr

/-- LOCALSIZE of a launch record (R25). -/
def LaunchRec.grant (r : LaunchRec) : Nat := roundUp r.locals 4096

def LaunchRec.shape (r : LaunchRec) : Shape := ⟨r.teamSize, r.vregs, r.grant, r.tdcount, r.matrix⟩

/-- Threads in whole home waves, bytes of registers, and the local footprint (R27, R154). -/
def Shape.places (x : Shape) : Nat := 32 * homeWaves x.threads
def Shape.regs (x : Shape) : Nat := x.vregs * 128 * homeWaves x.threads
def Shape.footprint (x : Shape) : Nat := roundUp (x.locals + 64 * x.threads) 4096

/-- Whether teams fit one core, and footprints their cluster. -/
def coreHolds (core : List Shape) (cluster : List Nat) : Bool :=
  decide (core.length ≤ 16 ∧ (core.map Shape.places).sum ≤ 4096 ∧ (core.map Shape.regs).sum ≤ 524288
    ∧ cluster.sum ≤ 1835008 ∧ (core.map (·.tds)).sum ≤ 64 ∧ (core.filter (·.matrix)).length ≤ 1)

/-- A VA of a record that must be aligned and have bits [63:52] zero. -/
def vaOk (a n : Nat) : Bool := decide (a % n = 0 ∧ a < 2 ^ 52)

/-- The pages of the constant image: the model's address of each, or none where one fails, or its lease is over (order 11, R14). -/
def State.imagePages (s : State) (die : Nat) (r : LaunchRec) : Option (List Nat) :=
  if r.cwords = 0 then some []
  else match s.translate (.die die) r.ctx r.cbank (4 * r.cwords) .read with
    | .error _ => none
    | .ok ps =>
      if (permissionErr ps .read).isSome || ps.any (fun p => (s.refusal r.ctx p.addr p.count).isSome) then none
      else some (ps.map fun p => p.leaf.addr (p.va / 2 ^ 16 * 2 ^ 16))

/-- The REASON of BAD_LAUNCH, in the order of R349; `dev` is the launcher's context for a device launch. -/
def State.launchErr (s : State) (die : Nat) (dev : Option Nat) (b : List Byte) : Option Nat :=
  let r := parseLaunch b
  let resident := match s.ctx? r.ctx with
    | some c => !c.dying
    | none => false
  if (b.drop 80).any (· != 0) ∨ 32 ≤ field b 30 1 then some 0x0A
  else if !vaOk r.entry.toNat 4 then some 1
  else if r.gx = 0 ∨ 2 ^ 31 ≤ r.gx ∨ r.gy = 0 ∨ r.gz = 0 ∨ r.teamSize = 0 ∨ 1024 < r.teamSize then some 2
  else if r.vregs < 8 ∨ 512 < r.vregs ∨ r.vregs % 8 ≠ 0 then some 3
  else if 1048576 < r.locals then some 4
  else if 1023 < r.mereAge then some 6
  else if 16 < r.guards ∨ 64 < r.tdcount then some 5
  else if 8192 < r.cwords ∨ (r.cwords ≠ 0 ∧ !vaOk r.cbank 4) then some 9
  else if !resident ∨ dev.any (· != r.ctx) then some 7
  else if 4 < field b 31 1 ∨ (s.badId r.ctx (positions r.parcels)).isSome
      ∨ (s.sizeErr (((s.ctx? r.ctx).map (·.pquota)).getD 0) (distinct r.parcels)).isSome then some 8
  else if !coreHolds [r.shape] [r.shape.footprint] then some 0x0B
  else if (s.imagePages die r).isNone then some 0x0C
  else if r.nextRec ≠ 0 ∧ !vaOk r.nextRec 128 then some 0x0D
  else if r.joinVa ≠ 0 ∧ !vaOk r.joinVa 4 then some 0x0E
  else none

/-! ## Acceptance (R350, R357) -/

/-- The model's address of a word of a grid's constant image. -/
def Grid.imageAddr (g : Grid) (i : Nat) : Nat :=
  let va := g.lrec.cbank + 4 * i
  (g.pages.getD (va / 2 ^ 16 - g.lrec.cbank / 2 ^ 16) 0) + va % 2 ^ 16

/-- Constant words copied, the next n of them in order; a poisoned one kills the context (R350). A word of a polder whose lease has
ended since the check is a value that nothing states (log 96). Each word is read at the moment of its copy, so that a later one may show
a store made after the launch (DESIGN CHOICE: log 115; R28 says snapshot, R350 copied in the background). -/
def State.copyConsts (s : State) (gid n : Nat) : State :=
  match n with
  | 0 => s
  | n + 1 =>
    match s.grid? gid with
    | none => s
    | some g =>
      if g.lrec.cwords ≤ g.copied then s
      else
        let a := g.imageAddr g.copied
        if s.poisoned a 4 then s.killPoisoned g.ctx (g.lrec.cbank + 4 * g.copied)
        else
          let w := BitVec.ofNat 32 (if (s.refusal g.ctx a 4).isSome then s.freeNat [16, gid, g.copied] else Memory.num s.mem a 4)
          ((s.demandRead a 4).updGrid gid fun g => { g with consts := Sparse.put 0 g.consts g.copied w, copied := g.copied + 1 }).copyConsts gid n

def TeamStatus.hasSlot : TeamStatus → Bool
  | .swapped _ => false
  | _ => true

/-- The die with the most free team slots, the lower one where they tie (R357): a team on a core has a slot, and one that has been
dealt to the die and not placed yet is about to take one, of the die's 2,048 (DEDUCED: log 97). -/
def State.dealDie (s : State) : Nat :=
  (minBy (fun d => min 2048 (s.teams.filter fun t => t.die == d && t.status.hasSlot).length) (iota 0 4)).getD 0

/-- Deals the teams of an accepted grid, in order of their index. -/
def State.deal (s : State) (g : Grid) (is : List Nat) : State :=
  match is with
  | [] => s
  | i :: rest =>
    let t : Team := {
      uid := s.seq, gid := g.gid, index := i, die := s.dealDie, vregs := g.lrec.vregs, localSize := g.lrec.grant,
      guards := List.replicate g.lrec.guards .unresolved, tds := List.replicate g.lrec.tdcount none, threads := [] }
    State.deal ({ s with teams := s.teams ++ [t] }).tick g rest

/-- A checked record becomes a grid; its number is the GRIDID. The code that is visible now, or newer, is what it fetches
(R40). -/
def State.accept (s : State) (origin : Origin) (depth : Nat) (r : LaunchRec) (pages : List Nat) : State × Nat :=
  let gid := s.seq
  let g : Grid := { gid, ctx := r.ctx, lrec := r, depth, order := gid, pages, origin := match origin with
    | .host 0 => .host gid
    | o => o }
  let s := (({ s with grids := s.grids ++ [g], icache := [] }).noteAct 0 [14, r.ctx] 0).tick
  let s := s.copyConsts gid (min r.cwords 512)
  (if (s.grid? gid).isSome then s.deal g (iota 0 r.teams) else s, gid)

/-! ## Capacity, reservations and the order of the queues (R154, R355, R357) -/

/-- What a team takes now. -/
def State.shapeOf (s : State) (t : Team) : Shape :=
  let r := ((s.grid? t.gid).map (·.lrec)).getD {}
  ⟨r.teamSize, t.vregs, t.localSize, r.tdcount, r.matrix⟩

def State.coreShapes (s : State) (core excl : Nat) : List Shape :=
  (s.teams.filter fun t => t.status == .resident && t.pkCore == core && t.uid != excl).map s.shapeOf

/-- Free reserved slots of a context on a core. -/
def State.freeReserved (s : State) (c : Context) (core : Nat) : Nat :=
  (c.rsvSlots.filter (· == core)).length
    - (s.teams.filter fun t => t.status == .resident && t.pkCore == core && t.reserved && s.ctxOf t == c.num).length

def State.reservedShapes (s : State) (core : Nat) : List Shape :=
  s.contexts.flatMap fun c => match c.rsvShape with
    | some r => List.replicate (s.freeReserved c core) r.shape
    | none => []

/-- The cores of a core's cluster. -/
def clusterCores (core : Nat) : List Nat := iota (core / 4 * 4) 4

/-- Whether a shape fits a core beside its teams and the free reserved slots, a team aside. -/
def State.fits (s : State) (core excl : Nat) (x : Shape) : Bool :=
  coreHolds (x :: s.coreShapes core excl ++ s.reservedShapes core)
    (x.footprint :: (clusterCores core).flatMap fun k => (s.coreShapes k excl ++ s.reservedShapes k).map Shape.footprint)

/-- Whether a team fits a free reserved slot of its context on a core. -/
def State.fitsReserved (s : State) (c : Context) (core : Nat) (x : Shape) : Bool :=
  match c.rsvShape with
  | none => false
  | some r =>
    let y := r.shape
    decide (0 < s.freeReserved c core ∧ x.places ≤ y.places ∧ x.regs ≤ y.regs ∧ x.footprint ≤ y.footprint ∧ x.tds ≤ y.tds)
      && (!x.matrix || y.matrix)
      && coreHolds (x :: s.coreShapes core 0)
        (x.footprint :: (clusterCores core).flatMap fun k => (s.coreShapes k 0).map Shape.footprint)

/-- Places the reserved teams: one per cluster first, from cluster 0 upward, and round again, each on the lowest core of its
cluster that can hold it beside the reservations already there. None where they cannot all be held. -/
def reserve (others : List (Nat × Shape)) (x : Shape) (fuel n cluster missed : Nat) (got : List Nat) : Option (List Nat) :=
  match fuel with
  | 0 => if n = 0 then some got else none
  | fuel + 1 =>
    if n = 0 then some got
    else if 128 ≤ missed then none
    else
      let on := fun (k : Nat) => (others.filter (·.1 == k)).map (·.2) ++ List.replicate (got.filter (· == k)).length x
      let cl := (iota (4 * cluster) 4).flatMap fun k => (on k).map Shape.footprint
      match (iota (4 * cluster) 4).find? fun k => coreHolds (x :: on k) (x.footprint :: cl) with
      | some k => reserve others x fuel (n - 1) ((cluster + 1) % 128) 0 (got ++ [k])
      | none => reserve others x fuel n ((cluster + 1) % 128) (missed + 1) got

/-- The reservation of a context beside those of the other resident contexts. -/
def State.reserveFor (s : State) (x : Shape) (n : Nat) : Option (List Nat) :=
  let others := s.contexts.flatMap fun c => match c.rsvShape with
    | some r => c.rsvSlots.map fun k => (k, r.shape)
    | none => []
  reserve others x (128 * (n + 1)) n 0 0 []

/-- Teams in the order of R357: CPRIO, PRIO, acceptance, team index. -/
def State.inOrder (s : State) (ts : List Team) : List Team :=
  let g := fun (t : Team) => s.grid? t.gid
  let ts := sortBy (·.index) ts
  let ts := sortBy (fun t => ((g t).map (·.order)).getD 0) ts
  let ts := sortBy (fun t => 7 - ((g t).map (·.lrec.prio)).getD 0) ts
  sortBy (fun t => 7 - ((s.ctx? (s.ctxOf t)).map (·.cprio)).getD 0) ts

/-- Whether a team is the fault handler team of its context. -/
def State.isHandlerTeam (s : State) (t : Team) : Bool := (s.ctx? (s.ctxOf t)).any fun c => c.fhGid == some t.gid

/-- Whether a team's context lets it be dispatched (R375, R378). -/
def State.dispatchable (s : State) (t : Team) : Bool :=
  (s.ctx? (s.ctxOf t)).any fun c => match c.status with
    | .running => true
    | .preempting .. => s.isHandlerTeam t
    | .preempted => s.isHandlerTeam t
    | _ => false

def TeamStatus.waiting : TeamStatus → Bool
  | .resident => false
  | _ => true

/-- A die's queue of undispatched and swapped-out teams. -/
def State.dieQueue (s : State) (die : Nat) : List Team :=
  s.inOrder (s.teams.filter fun t => t.die == die && t.status.waiting && s.dispatchable t)

/-- The cores of a die, those with the most free threads first. -/
def State.coresOf (s : State) (die : Nat) : List Nat :=
  sortBy (fun core => ((s.coreShapes core 0).map Shape.places).sum) (iota (die * 128) 128)

/-- Where a team would be placed, and whether in a reserved slot, which comes first. -/
def State.placeFor (s : State) (t : Team) : Option (Nat × Bool) :=
  let x := s.shapeOf t
  match (s.ctx? (s.ctxOf t)).bind fun c => (s.coresOf t.die).find? fun k => s.fitsReserved c k x with
  | some k => some (k, true)
  | none => ((s.coresOf t.die).find? fun k => s.fits k t.uid x).map fun k => (k, false)

/-- The team that a dispatcher would place next: its head; or, behind a head that fits no core, the first team of the head's
context that fits a free reserved slot. -/
def State.nextTeam (s : State) (die : Nat) : Option (Team × Nat × Bool) :=
  match s.dieQueue die with
  | [] => none
  | h :: rest =>
    match s.placeFor h with
    | some p => some (h, p)
    | none => rest.findSome? fun t =>
        if s.ctxOf t = s.ctxOf h then match s.placeFor t with
          | some (k, true) => some (t, k, true)
          | _ => none
        else none

/-! ## A team starts (R350 to R352) -/

/-! ## Granules (R27, R35) -/

/-- Granules of a cluster that are free, in slices that keep at least 16 ways of cache. -/
def State.freeGranules (s : State) (cluster : Nat) (mine : List Nat) : List Nat :=
  let used := mine ++ (s.teams.filter fun t => t.status == .resident && t.pkCluster == cluster).flatMap (·.granules)
  (iota 0 512).filter fun g => !used.contains g && decide ((used.filter fun u => u / 128 = g / 128).length < 112)

/-- Granules taken of a cluster, n of them, whichever the device takes. -/
def State.pickGranules (s : State) (cluster n : Nat) (mine : List Nat) : List Nat :=
  match n with
  | 0 => mine
  | n + 1 =>
    let free := s.freeGranules cluster mine
    match free[s.choose [20, cluster, n] (max 1 free.length)]? with
    | some g => s.pickGranules cluster n (mine ++ [g])
    | none => mine

/-- What a granule holds as it passes to a context: zero if none has held it since the wipe (R406), or another held it last (R27),
else bytes that nothing states. -/
def State.granuleFill (s : State) (cluster ctx g : Nat) : Option Nat :=
  match s.granuleCtx.find? (·.1 == 512 * cluster + g) with
  | some x => if x.2 = ctx then some (1024 * s.seq + g) else none
  | none => none

/-- A team takes n more granules of its cluster: the ways' copies go (event 1 of R38), and the contents are those of a context's
first use, or its own. -/
def State.takeGranules (s : State) (uid n : Nat) : State × List (Option Nat) :=
  match s.team? uid with
  | none => (s, [])
  | some t =>
    let cluster := t.pkCluster
    let ctx := s.ctxOf t
    let gs := s.pickGranules cluster n []
    let fill := gs.map (s.granuleFill cluster ctx)
    let gone := s.l1.filter fun c => c.cluster == cluster && gs.contains (128 * l1Slice c.line + c.way)
    let keys := gs.map fun g => 512 * cluster + g
    let s := s.dropCopies gone
    let s := { s with
      granuleCtx := (s.granuleCtx.filter fun (x : Nat × Nat) => !keys.contains x.1) ++ (keys.map fun k => (k, ctx))
      granuleLeft := s.granuleLeft.filter fun (x : Nat × List Host.Cell) => !keys.contains x.1 }
    ((s.updTeam uid fun t => { t with granules := t.granules ++ gs }).tick, fill)

/-- A team stands on a core: in the first free slot, with granules for its footprint. The answer: what its granules hold. -/
def placeOn (s : State) (t : Team) (core : Nat) (reserved : Bool) : State × List (Option Nat) :=
  let used := (s.teams.filter fun u => u.status == .resident && u.pkCore == core).map (·.slot)
  let s := s.updTeam t.uid fun t => { t with
    cluster := core / 4 % 32, core := core % 4, slot := firstFree used 0, reserved, status := .resident, granules := [] }
  s.takeGranules t.uid ((s.shapeOf t).footprint / 4096)

/-- The first instruction: threads at ENTRY in their home waves, registers zero, after any pre-entry. Local memory holds what its
granules do. -/
def State.startTeam (s : State) (uid : Nat) (fill : List (Option Nat)) : State :=
  match s.team? uid with
  | none => s
  | some t =>
    match s.grid? t.gid with
    | none => s
    | some g =>
      let r := g.lrec
      let v0 := fun (w : Nat) => if w = 0 then [] else [(0, BitVec.ofNat 32 w)]
      let ths := fun (v : List (Nat × Word)) (b : Option Blocked) => (iota 0 r.teamSize).map fun tid =>
        ({ tid, pc := r.entry, v, blocked := b } : Thread)
      let waves := fun (s : State) => (iota 0 (homeWaves r.teamSize)).foldl (fun s hw =>
        s.addWave uid (homeLanes (iota (32 * hw) (min 32 (r.teamSize - 32 * hw))))) s
      let set := fun (s : State) (ts : List Thread) => s.updTeam uid fun t => { t with threads := ts, started := true }
      let s := (s.updTeam uid fun t => { t with locFill := fill.take (t.localSize / 4096) }).flash t.pkCluster
      let s := if r.matrix then s.setEngine { uid } else s
      if r.parcels = [] then waves (set s (ths [] none))
      else match s.ctx? g.ctx with
        | none => s
        | some c =>
          match s.request c uid (positions r.parcels) with
          | .error w => waves (set s (ths (v0 w) none))
          | .ok s => set s (ths [] (some { wait := .preenter, len := 0, since := s.seq, cycle := s.now t.die }))

/-- TEAM_DISPATCH. -/
def State.teamDispatch (s : State) (die : Nat) : State :=
  match s.nextTeam die with
  | none => s
  | some (t, core, rsv) => match t.status with
    | .queued =>
      let p := placeOn s t core rsv
      p.1.startTeam t.uid p.2
    | _ => s

/-! ## Swap and migration (R358 to R360) -/

/-- Waits in which a team can be swapped out: those of R358, and those of the stage instructions (R175, R329). -/
def Wait.swappable : Wait → Bool
  | .penter _ | .preenter | .join .. | .event .. | .waitl _ | .slotres .. | .slottake .. | .stget _ | .stage .. | .stloop .. => true
  | .post r .. => r.launch
  | _ => false

def Team.swappable (t : Team) : Bool :=
  t.status == .resident && !t.threads.isEmpty && t.threads.all fun th => th.wait?.any Wait.swappable

/-- Cycles since the last of a team's waits began. -/
def State.waitingTime (s : State) (t : Team) : Nat :=
  s.now t.die - t.threads.foldl (fun m th => max m ((th.blocked.map (·.cycle)).getD 0)) 0

/-- Bytes and blocks of a team's save. -/
def State.saveBytes (s : State) (t : Team) : Nat :=
  let x := s.shapeOf t
  4096 + homeWaves x.threads * (x.vregs * 128 + 8192) + x.footprint + (if x.matrix then 655360 else 0)

/-- Free blocks of a context's swap area, as many as a team's save needs. -/
def State.saveBlocks (s : State) (c : Context) (t : Team) : Option (List Nat) :=
  let n := (s.saveBytes t + 65535) / 65536
  let used := (s.teams.filter fun u => s.ctxOf u == c.num).flatMap fun u => match u.status with
    | .swapped bs => bs
    | _ => []
  let free := (iota 0 (c.swapLen.toNat / 65536)).filter fun k => !used.contains k
  if n ≤ free.length then some (free.take n) else none

/-- The contents of a block of a save, which nothing states. -/
@[irreducible] def State.saveData (s : State) (salt : Nat) : List Byte := (iota 0 65536).map fun i => s.freeByte [3, salt, i]

/-- The save's writes: the cells, or none where a page refuses them. -/
def State.saveCells (s : State) (c : Context) (die salt : Nat) (bs : List Nat) : Option (List Host.Cell) :=
  match bs with
  | [] => some []
  | b :: rest =>
    match s.writeCells (.die die) c.num (c.swapBase.toNat + 65536 * b) (s.saveData salt) .write, s.saveCells c die (salt + 1) rest with
    | .ok cells, some l => some (cells ++ l)
    | _, _ => none

/-- Nothing of a team is on its way that its save would have to hold: its results are bound, and its range fences have retired. -/
def Team.settled (t : Team) : Bool := (t.unbound (t.threads.map (·.tid))).isEmpty && t.threads.all (·.fences.isEmpty)

/-- Saves one team, if its swap area takes it: its outstanding results are written first (R270). -/
def State.swapTeam (s : State) (t : Team) : State :=
  match s.ctx? (s.ctxOf t) with
  | none => s
  | some c =>
    match s.saveBlocks c t with
    | none => s
    | some bs =>
      if (s.engine t.uid).assist || !t.settled then s
      else match s.saveCells c t.die 0 bs with
        | none => s
        | some cells =>
          (((s.homeWrite cells).drainEngine t.uid).noteAct t.die [19, t.uid] 0).updTeam t.uid fun t =>
            { t.flushAll s.lastResult (t.threads.map (·.tid)) with status := .swapped bs, reserved := false, granules := [] }

/-- A core would hold a team's shape if some teams were gone, in a free reserved slot of its context or beside those that are free. -/
def State.fitsWithout (s : State) (core : Nat) (head : Team) (out : List Team) : Bool :=
  let x := s.shapeOf head
  let s := { s with teams := s.teams.filter fun t => !(out.map fun (u : Team) => u.uid).contains t.uid }
  s.fits core head.uid x || (s.ctx? (s.ctxOf head)).any fun c => s.fitsReserved c core x

/-- Teams of a die that a waiting head may put out, lowest in order first: on a core that could then hold the head, or on another core
of its cluster, where only their local footprints are in its way (R358). -/
def State.swapVictims (s : State) (die : Nat) (head : Team) : List Team :=
  let cands := s.teams.filter fun t => t.die == die && t.swappable && decide (13000 ≤ s.waitingTime t)
  let lower := ((s.inOrder (head :: cands)).dropWhile (·.uid != head.uid)).drop 1
  let near := fun (t : Team) => lower.filter fun u => u.pkCluster == t.pkCluster
  let could := fun (t : Team) => (clusterCores t.pkCore).any fun k => s.fitsWithout k head (near t) &&
    (k == t.pkCore || !s.fitsWithout k head ((near t).filter fun u => u.pkCore == k))
  (lower.filter could).reverse

/-- A team's save can be written now: its swap area has the blocks, no page of them refuses the write, and nothing of it is in
progress (R358). -/
def State.canSave (s : State) (t : Team) : Bool :=
  !(s.engine t.uid).assist && t.settled && (s.ctx? (s.ctxOf t)).any fun c => match s.saveBlocks c t with
    | none => false
    | some bs => bs.all fun b => match s.translate (.die t.die) c.num (c.swapBase.toNat + 65536 * b) 65536 .write with
      | .error _ => false
      | .ok ps => (permissionErr ps .write).isNone && (s.refusedPart c.num .write ps).isNone

/-- A team of a context that is being pre-empted, which can be swapped and saved; not while a thread of it runs the handler (R258, R378). -/
def State.preemptVictim (s : State) (die : Nat) : Option Team :=
  s.teams.find? fun t => t.die == die && t.swappable && !s.isHandlerTeam t && t.threads.all (fun th => !th.handler)
    && ((s.ctx? (s.ctxOf t)).any fun c => match c.status with
      | .preempting .. => true
      | _ => false) && s.canSave t

/-- SWAP_OUT: a team of a context that is being pre-empted (R378), or one that makes room for a head that fits no core. -/
def State.swapOut (s : State) (die : Nat) : State :=
  match s.preemptVictim die with
  | some t => s.swapTeam t
  | none => match (s.dieQueue die).head? with
    | none => s
    | some h =>
      if (s.placeFor h).isSome then s
      else match (s.swapVictims die h).find? s.canSave with
        | some t => s.swapTeam t
        | none => s

/-- Every store of a team has been acknowledged (R113). -/
def State.storesAcked (s : State) (uid : Nat) : Bool :=
  (s.msgs.all fun m => m.uid != uid || m.what.accepted.isNone) && s.deferred.all (·.uid != uid)

/-- SWAP_IN: a swapped team returns to a core, after its stores are acknowledged and the cluster is invalidated (R113). -/
def State.swapIn (s : State) (die : Nat) : State :=
  match s.nextTeam die with
  | none => s
  | some (t, core, rsv) => match t.status with
    | .swapped _ =>
      if s.storesAcked t.uid then
        let s := (placeOn s t core rsv).1.flash (core / 4)
        { s with matrix := updWhere (fun k => k.uid == t.uid) (fun k => { k with core := core }) s.matrix }
      else s
    | _ => s

/-- TEAM_MIGRATION: teams from the tail of a queue of more than 256; 16 of them, where R360 says up to 16 (DESIGN CHOICE: log 125). -/
def State.migrate (s : State) (src dst : Nat) : State :=
  let q := s.dieQueue src
  let free := 2048 - (s.teams.filter fun t => t.die == dst && t.status == .resident).length
  if src = dst ∨ 4 ≤ dst ∨ q.length ≤ 256 ∨ free < 16 then s
  else
    let tail := (q.drop (q.length - 16)).map (·.uid)
    { s with teams := updWhere (fun t => tail.contains t.uid) (fun t => { t with die := dst }) s.teams }

/-! ## LAUNCH (R338, R361) -/

def notLeader (_ : Issue) (lt : Nat × Thread) : Option Nat := if lt.2.tid = 0 then none else some 0

/-- The refusal of a participant's launch. DESIGN CHOICE: a record address that is no multiple of 128 is refused before the depth is
looked at (log 93; R338 does not place the check). -/
def Issue.launchStatus (x : Issue) (s : State) (lt : Nat × Thread) : Option Nat :=
  if x.a lt 64 % 128 ≠ 0 then some (statusWord 0x19 0xFF)
  else if 10 ≤ x.grid.depth then some (statusWord 0x18 0)
  else (s.launchErr x.team.die (some x.grid.ctx) (x.record lt)).map (statusWord 0x19)

/-- LAUNCH of one participant, whose record has passed its checks: the image's pages stay as they were checked (R350). -/
def Issue.launchOne (x : Issue) (s : State) (lt : Nat × Thread) : State :=
  let r := x.record lt
  x.post lt { cluster := x.team.pkCluster, ctx := x.grid.ctx, gid := x.grid.gid, launch := true, far := true, record := r,
              pages := (x.s.imagePages x.team.die (parseLaunch r)).getD [] } s

def launchBody (x : Issue) (s : State) : State × Out :=
  if !x.recordReady s then (s, .again)
  else match x.parts.find? fun lt => s.poisonedVa x.team.tlb x.grid.ctx (x.a lt 64) 128 with
    | some lt => (s.killPoisoned x.grid.ctx (x.a lt 64), .handled)
    | none =>
      let s := x.parts.foldl (fun (s : State) lt => s.demandVa x.team.tlb x.grid.ctx (x.a lt 64) 128) s
      let s := x.parts.foldl (fun s lt => match x.launchStatus s lt with
        | some w => x.give lt 32 w s
        | none => s) s
      let x := { x with parts := x.parts.filter fun lt => (x.launchStatus s lt).isNone }
      afterRelease .pk (fun x s => (x.parts.foldl x.launchOne s, .go)) x s

def execLaunch (f : Fields) (s : State) :=
  runWave 0xE2 f (unlessRaised Cause.privilege notLeader (recordChecked launchBody)) s

/-- A record that waits for room in the buffer is staged when there is; one that waits for space in the ring goes there when there is,
or into an entry that frees in that cycle (R333, R338, R369). -/
def State.settlePost (s : State) (t : Team) (th : Thread) (r : Staged) (fault : Option Nat) (d : Operand) : State :=
  let done := fun (s : State) (w : Nat) => (s.give t.uid th.tid d 32 w).wake t.uid th.tid
  let wait := fun (info : Nat) => s.updThread t.uid th.tid fun th =>
    { th with blocked := th.blocked.map fun b => { b with wait := .post r (some info) d } }
  match (match fault with
    | some info => RingWrite.fails info
    | none => s.writeRing r) with
  | .full => s
  | .written t => if s.freedFor r then done (s.enter r) 0 else done t 1
  | .fails info => match s.stage r info with
    | .placed s w => done s w
    | _ => wait info

/-- LAUNCH_ACCEPT: the launch unit takes a cluster's oldest record; it drops one whose context has left. A record of the ring that no
LAUNCH put there has no launching grid: its depth is one that nothing states (R364; log 98). -/
def State.launchAccept (s : State) (cluster : Nat) : State :=
  match s.pendingLaunches.find? (·.cluster == cluster) with
  | none => s
  | some p =>
    let drop := fun (s : State) => { s with pendingLaunches := s.pendingLaunches.erase p }.noteAct (cluster / 32) [34, cluster] 0
    let depth := match s.grid? p.gid with
      | some g => some (g.depth + 1)
      | none => if p.gid = 0 then some (2 + s.choose [21] 9) else none
    match s.ctx? p.ctx, depth with
    | some c, some d =>
      if c.status = .running then ((drop s).accept (.device p.gid) d (parseLaunch p.record) p.pages).1
      else if c.dying then drop s
      else s
    | _, _ => drop s

/-- CONSTANT_COPY: the next word of a grid's image. -/
def State.constantCopy (s : State) (gid : Nat) : State := s.copyConsts gid 1

/-! ## The dead-letter ring and the staging buffers (R362 to R364) -/

/-- A record as it is checked and delivered: word 120 without the tag's other fields. -/
def dlrRecord (b : List Byte) : List Byte :=
  let tag := field b 120 8
  b.take 120 ++ toBytes 8 (if tag / 2 ^ 62 = 1 then tag % 2 else 0)

/-- TAKE advances. -/
def State.takeNext (s : State) (ctx : Nat) : State :=
  s.updCtx ctx fun c => { c with
    take := c.take + 1, dlrParents := c.dlrParents.filter (·.1 != c.take), dlrNear := c.dlrNear.filter (· != c.take) }

/-- DLR_DRAIN: the CCCs deliver the record at TAKE, discard it, or stop at a page that fails. -/
def State.dlrDrain (s : State) (ctx : Nat) : State :=
  match s.ctx? ctx with
  | none => s
  | some c =>
    let running := match c.status with
      | .running => true
      | .preempting .. => true
      | .preempted => true
      | _ => false
    if !running || c.drainStopped || c.put ≤ c.take then s
    else
      let va := c.dlrBase.toNat + 128 * (c.take % c.dlrSize)
      match s.readVa (.die 0) ctx va 128 with
      | .error info =>
        if s.reportRoom ctx then
          (s.updCtx ctx fun c => { c with drainStopped := true }).report ctx ⟨Cause.deadletterFault, info, 0, .deadLetterDrain⟩
        else s
      | .ok b =>
        if s.poisonedVa (.die 0) ctx va 128 then s.killPoisoned ctx va
        else
          let s := s.demandVa (.die 0) ctx va 128
          let tag := field b 120 8
          let kind := tag / 2 ^ 62
          let cluster := bits tag 48 7
          let r := dlrRecord b
          let parent := (c.dlrParents.find? (·.1 == c.take)).map (·.2)
          let bad := kind = 0 ∨ kind = 3 ∨ bits tag 48 14 ≥ 128
            ∨ (kind = 1 ∧ !entryOk (taskEntry r)) ∨ (kind = 2 ∧ (s.launchErr (cluster / 32) (some ctx) r).isSome)
          if bad then s.takeNext ctx
          else if kind = 1 then
            (if s.poolSize cluster < 512 then
              { s.takeNext ctx with pool := s.pool ++ [taskOf cluster ctx (!c.dlrNear.contains c.take) r] }
            else s)
          else if (s.pendingLaunches.filter (·.cluster == cluster)).length < 4 then
            let p : PendingLaunch := {
              cluster, ctx, gid := parent.getD 0, record := r, pages := (s.imagePages (cluster / 32) (parseLaunch r)).getD [] }
            { s.takeNext ctx with pendingLaunches := s.pendingLaunches ++ [p] }
          else s

/-- STAGING_RETRY: the held records that the handler sent back are tried again, in order, until one cannot go; into the ring, or into
an entry that frees in this cycle (R363, R369). -/
def retryStaged (s : State) (rs : List Staged) : State :=
  match rs with
  | [] => s
  | r :: rest =>
    let out := { s with staging := s.staging.erase r }
    match out.writeRing r with
    | .full => s
    | .written t => retryStaged (if out.freedFor r then out.enter r else t) rest
    | .fails info => match out.stage r info with
      | .placed t _ => retryStaged t rest
      | _ => s

def State.stagingRetry (s : State) (cluster ctx : Nat) : State :=
  retryStaged s (s.staging.filter fun r => r.cluster == cluster && r.ctx == ctx && r.retry)

/-! ## REGGROW and REGSHRK (R341) -/

/-- The refusal of a request. -/
def Issue.growErr (x : Issue) (lt : Nat × Thread) : Option Nat :=
  let v := x.a lt 32
  let l := roundUp (x.b lt 32) 4096
  let y := x.s.shapeOf x.team
  let z := if x.op = 0xE5 then { y with vregs := max y.vregs v, locals := max y.locals l }
    else { y with vregs := min y.vregs v, locals := min y.locals l }
  if v % 8 ≠ 0 ∨ v < 8 ∨ 512 < v then some (statusWord 0x1A 1)
  else if 1048576 < l then some (statusWord 0x1A 2)
  else if !coreHolds [z] [z.footprint] then some (statusWord 0x1A 3)
  else none

def Issue.growOne (x : Issue) (s : State) (lt : Nat × Thread) : State :=
  match x.growErr lt with
  | some w => x.give lt 32 w s
  | none =>
    let s := s.updTeam x.team.uid fun t => { t with grows := t.grows ++ [lt.2.tid] }
    x.block lt.2.tid (.grow (x.op == 0xE6) (x.a lt 32) (roundUp (x.b lt 32) 4096) (x.dst lt)) s

def growBody (x : Issue) (s : State) : State × Out := ((sortBy (fun lt => lt.2.tid) x.parts).foldl x.growOne s, .go)

def execReggrow (f : Fields) (s : State) := runWave 0xE5 f (unlessRaised Cause.privilege notTaskHost growBody) s
def execRegshrk (f : Fields) (s : State) := runWave 0xE6 f (unlessRaised Cause.privilege notTaskHost growBody) s

/-- Registers and local bytes that a shrink releases are no longer in use. -/
def State.shrinkOk (s : State) (t : Team) (vregs bytes : Nat) : Bool :=
  let reg := fun (p : Pend) => (iota vregs (t.vregs - vregs)).any fun i => p.covers (.v i)
  let loc := fun (e : EmbargoReq) => e.loc && decide (bytes ≤ e.hi ∧ bytes < t.localSize)
  t.threads.all (fun th => th.pend.all fun p => !reg p)
    && s.couriers.all (fun k => k.uid != t.uid || !(k.embargoes t).any loc)
    && s.matrix.all (fun k => k.uid != t.uid || !(k.what.embargoes.any loc || (k.isStream && decide (bytes < t.localSize))))
    && s.embargoes.all fun e => !(e.loc && e.tag == t.uid && decide (bytes ≤ e.hi ∧ bytes < t.localSize))

/-- A team's requests that wait: those of an earlier cycle first, and of one cycle in order of THREADID (R341). -/
def Team.growOrder (t : Team) : List Nat :=
  sortBy (fun i => ((t.thread? i).bind (·.blocked)).elim 0 (·.cycle)) (sortBy id t.grows)

/-- At the end of a cycle, the team's oldest request is served when it can be. -/
def State.settleGrow (s : State) (t : Team) : State :=
  match t.growOrder with
  | [] => s
  | tid :: rest =>
    match (t.thread? tid).bind (·.wait?) with
    | some (.grow shrink v l d) =>
      let x := s.shapeOf t
      let nv := if shrink then min t.vregs v else max t.vregs v
      let nl := if shrink then min t.localSize l else max t.localSize l
      let ok := if shrink then s.shrinkOk t nv nl else s.fits t.pkCore t.uid { x with vregs := nv, locals := nl }
      if ok then
        let n := (x.footprint) / 4096
        let m := ({ x with locals := nl } : Shape).footprint / 4096
        let r := s.takeGranules t.uid (m - n)
        let s := r.1.updTeam t.uid fun t => { t with
          grows := rest, vregs := nv, localSize := nl, granules := t.granules.take m
          locFill := (t.locFill ++ r.2).take (nl / 4096)
          loc := t.loc.filter fun c => decide (c.1 < nl)
          threads := t.threads.map fun th => { th with v := th.v.filter fun e => decide (e.1 < nv) } }
        (s.pendAll t.uid [(tid, operandWrites d 32 (nv + nl / 4096 * 2 ^ 16) ++ [⟨.vregs, t.vregs⟩, ⟨.localSize, t.localSize⟩])]).wake
          t.uid tid
      else s
    | _ => s.updTeam t.uid fun t => { t with grows := rest }

/-! ## Completion and successors (R339, R365, R366) -/

/-- The successor of a grid is read, checked and accepted; a refusal is kept for the grid's notice. -/
def State.startSuccessor (s : State) (g : Grid) : State :=
  let note := fun (s : State) (w : Nat) => s.updGrid g.gid fun g => { g with successor := some w }
  let origin := match g.origin with
    | .host first => Origin.host first
    | o => o
  let dev := match g.origin with
    | .device _ => some g.ctx
    | _ => none
  match s.readVa (.die 0) g.ctx g.lrec.nextRec 128 with
  | .error _ => note s (statusWord 0x19 0x0D)
  | .ok b =>
    if s.poisonedVa (.die 0) g.ctx g.lrec.nextRec 128 then s.killPoisoned g.ctx g.lrec.nextRec
    else
      let s := s.demandVa (.die 0) g.ctx g.lrec.nextRec 128
      match s.launchErr 0 dev b with
      | some r => note s (statusWord 0x19 r)
      | none =>
        let r := parseLaunch b
        ((note s 0).accept origin g.depth r ((s.imagePages 0 r).getD [])).1

/-- Every team of a grid has triggered (R339). -/
def State.triggered (s : State) (g : Grid) : Bool :=
  (s.teams.filter (·.gid == g.gid)).all fun t => t.started && t.threads.all (·.triggered)

/-- The early trigger of every grid that is due one. -/
def State.earlyTriggers (s : State) (gs : List Grid) : State :=
  match gs with
  | [] => s
  | g :: rest =>
    let running := (s.ctx? g.ctx).any fun c => !c.dying
    State.earlyTriggers (if g.lrec.nextRec ≠ 0 ∧ g.successor = none ∧ running ∧ s.triggered g then s.startSuccessor g else s) rest

/-- What keeps a grid from completing: its teams, engine commands, remote operations and children. DESIGN CHOICE: a UO store that is
not acknowledged does not (log 94; R127 against R132). -/
def State.gridBusy (s : State) (g : Grid) : Bool :=
  s.teams.any (·.gid == g.gid) || s.couriers.any (·.gid == g.gid) || s.matrix.any (·.gid == g.gid)
    || (s.remotes.any fun r => r.gid == g.gid && r.refused.isNone)
    || (s.grids.any fun h => h.origin == .device g.gid) || (s.pendingLaunches.any (·.gid == g.gid))
    || (s.staging.any fun r => r.launch && r.gid == g.gid)
    || (s.contexts.any fun c => c.num == g.ctx && c.dlrParents.any (·.2 == g.gid))

/-- A notice to the host of a context (R397). -/
def State.notice (s : State) (ctx code : Nat) (body : List Byte) : State :=
  let c := s.ctx? ctx
  s.post ⟨(c.map (·.port)).getD 0, (c.map (·.host)).getD 0, ctx, 0, code, 0, body⟩

/-- The decrement of a join counter, or the report that it failed (R340). -/
def State.decrementJoin (s : State) (ctx gid va : Nat) : State :=
  let fail := fun (info : Nat) => s.report ctx ⟨xcause info, info, 0, .join gid⟩
  match s.translate (.die 0) ctx va 4 .atomic with
  | .error i => fail i
  | .ok ps => match permissionErr ps .atomic with
    | some i => fail i
    | none => match ps with
      | [] => s
      | p :: _ => match s.refusal ctx p.addr p.count with
        | some _ => fail (xinfo 7 .atomic 2 va)
        | none =>
          let s := (s.forceRecall (lineOf p.addr)).demandRead p.addr 4
          if s.poisoned p.addr 4 then s.killPoisoned ctx va
          else s.homeWrite (cellsAt p.addr (toBytes 4 ((Memory.num s.mem p.addr 4 + 2 ^ 32 - 1) % 2 ^ 32)))

/-- The decrement of a join counter would be reported, and the queue of reports is full: it waits (R373). -/
def State.joinWaits (s : State) (ctx va : Nat) : Bool :=
  !s.reportRoom ctx && (match s.translate (.die 0) ctx va 4 .atomic with
    | .error _ => true
    | .ok ps => (permissionErr ps .atomic).isSome || ps.any fun p => (s.refusal ctx p.addr p.count).isSome)

/-- A decrement that the handler sent back is tried again, once its further report would have room (R340, R373). -/
def State.retryJoin (s : State) (ctx gid va : Nat) : State :=
  if s.joinWaits ctx va then s.updCtx ctx fun c => { c with joinRetries := c.joinRetries ++ [(gid, va)] }
  else s.decrementJoin ctx gid va

/-- The decrements that have waited for room. -/
def State.settleJoins (s : State) (cs : List Context) : State :=
  match cs with
  | [] => s
  | c :: rest => State.settleJoins (c.joinRetries.foldl (fun s j => s.retryJoin c.num j.1 j.2)
      (if c.joinRetries = [] then s else s.updCtx c.num fun c => { c with joinRetries := [] })) rest

/-- GRID_COMPLETE. -/
def State.gridComplete (s : State) (gid : Nat) : State :=
  match s.grid? gid with
  | none => s
  | some g =>
    if s.gridBusy g || (s.ctx? g.ctx).any Context.dying || (g.lrec.joinVa != 0 && s.joinWaits g.ctx g.lrec.joinVa) then s
    else
      let s := if g.lrec.joinVa ≠ 0 then s.decrementJoin g.ctx gid g.lrec.joinVa else s
      let s := if g.lrec.nextRec ≠ 0 ∧ g.successor = none then s.startSuccessor g else s
      if (s.ctx? g.ctx).any Context.dying then s
      else match s.grid? gid with
      | none => s
      | some g =>
        let s := match g.origin with
          | .host first => s.notice g.ctx 0x81
              (toBytes 8 gid ++ toBytes 4 (g.successor.getD 0) ++ toBytes 4 0 ++ toBytes 8 first)
          | _ => s
        { s with grids := s.grids.filter (·.gid != gid) }

end Sys2Proof.Machine
end

