-- ==== Sys2Proof/Machine/Fabric.lean ====
section
/-! DEFINITION. The fabric: waybills and their check, remote operations and their arrivals, the switches and links, and the
topology map (R342 to R345, R383 to R392, R398). -/

namespace Sys2Proof.Machine

/-! ## The topology map (R388, R389) -/

/-- A word of a context's map that its map cache holds. -/
def State.cachedWord (s : State) (c : Context) (i : Nat) : Option Nat :=
  (s.mapCache.find? fun m => m.ctx == c.num && m.index == i).map (·.word)

/-- A word of a context's map: as cached, or as memory holds it; none where it cannot be read. -/
def State.mapWord (s : State) (die : Nat) (c : Context) (i : Nat) : Option Nat :=
  match s.cachedWord c i with
  | some w => some w
  | none => match s.readVa (.die die) c.num (c.mapBase.toNat + 8 * i) 8 with
    | .ok b => some (ofBytes b)
    | .error _ => none

/-- Whether a word of the map would be read from a poisoned sector (R380). -/
def State.mapPoisoned (s : State) (die : Nat) (c : Context) (i : Nat) : Bool :=
  (s.cachedWord c i).isNone && s.poisonedVa (.die die) c.num (c.mapBase.toNat + 8 * i) 8

/-- The map cache takes a word (at most 4,096 of a context), with the addresses of its bytes. -/
def State.fillMap (s : State) (die ctx i : Nat) : State :=
  match s.ctx? ctx with
  | none => s
  | some c =>
    if (s.cachedWord c i).isSome || decide (4096 ≤ (s.mapCache.filter (·.ctx == ctx)).length) || s.mapPoisoned die c i then s
    else match s.translate (.die die) ctx (c.mapBase.toNat + 8 * i) 8 .read, s.mapWord die c i with
      | .ok ps, some w =>
        let s := ps.foldl (fun s p => s.demandRead p.addr p.count) s
        { s with mapCache := s.mapCache ++ [(⟨ctx, i, ps.flatMap fun p => iota p.addr p.count, w⟩ : MapWord)] }
      | _, _ => s

def State.dropMap (s : State) (ctx i : Nat) : State :=
  { s with mapCache := s.mapCache.filter fun m => !(m.ctx == ctx && m.index == i) }

/-- Whether a map's header breaks R388. -/
def headerOk (s : State) (h : Nat) : Bool := h / 2 ^ 56 == 1 && bits h 21 11 == 0 && h % 2 ^ 21 == s.deviceId.toNat
def mapNsw (h : Nat) : Nat := bits h 32 24

/-- Where the word of a port stands: the device's own ports, or a switch's. -/
def portIndex (sw : Option Nat) (p : Nat) : Nat :=
  match sw with
  | none => 1 + p
  | some k => 17 + 288 * k + p

/-! ## Links of the package's switches (R383) -/

/-- The other end's name of a link between a leaf and a middle switch. -/
def mirror (sw port : Nat) : Nat × Nat := if sw < 32 ∧ port < 16 then (32 + port, sw) else if 32 ≤ sw then (port, sw - 32) else (sw, port)

def State.linkUp? (s : State) (sw port : Nat) : Bool := !s.nocDown.contains (sw, port) && !s.nocDown.contains (mirror sw port)

/-- The leaf of a fabric port. -/
def portLeaf (p : Nat) : Nat := 8 * (p / 4) + 4 + p % 4

/-- What stands at the leaves' ports: clusters, L2 slices, GDDR 7 controllers (4 * die + number), fabric ports, and the launch unit
with the PAC and Ebuembe. -/
inductive Endpoint where
  | cluster (n : Nat)
  | slice (n : Nat)
  | dram (n : Nat)
  | fabric (n : Nat)
  | launchUnit
  deriving DecidableEq, Repr

/-- The leaf of an endpoint, 8 * die + leaf, and its port there. -/
def Endpoint.leaf : Endpoint → Nat
  | .cluster n => n / 4
  | .slice n => n / 8
  | .dram n => 8 * (n / 4) + n % 4
  | .fabric n => portLeaf n
  | .launchUnit => 0
def Endpoint.port : Endpoint → Nat
  | .cluster n => 16 + n % 4
  | .slice n => 20 + n % 8
  | .dram _ => 28
  | .fabric _ => 28
  | .launchUnit => 29

/-- The hops of an on-chip waybill, each of class 0 (R384): 511 is ANY-UP. -/
def chipHops (a b : Endpoint) : List Nat := if a.leaf = b.leaf then [b.port] else [511, b.leaf, b.port]

/-- A leaf's uplinks that a new packet may take (R384, R385). -/
def State.uplinks (s : State) (leaf : Nat) : List Nat :=
  (iota 0 16).filter fun m => s.linkUp? leaf m && !s.nocAvoid.getLsbD m

/-- The die whose clock times a switch: its own; die 0's for a middle switch (log 103). -/
def switchDie (sw : Nat) : Nat := if sw < 32 then sw / 8 else 0

/-- The switch behind a switch's port. -/
def nextSwitch (sw port : Nat) : Nat := if sw < 32 then 32 + port else port

/-- Whether a way out of ports, from a switch on, has its links up. -/
def State.routeUp (s : State) (sw : Nat) (ports : List Nat) : Bool :=
  match ports with
  | [] => true
  | p :: rest => s.linkUp? sw p && s.routeUp (nextSwitch sw p) rest

/-- Whether the hops between two endpoints lead through, with an uplink of the leaf's choice (R384). -/
def State.reaches (s : State) (a b : Endpoint) (k : List Nat) : Bool :=
  if a.leaf = b.leaf then s.linkUp? a.leaf b.port
  else
    let up := s.uplinks a.leaf
    match up[s.choose k (max 1 up.length)]? with
    | some m => s.routeUp (32 + m) [b.leaf, b.port]
    | none => false

/-- Whether some choice of an uplink leads through. A packet that has none is dropped (R391), and its interface sends it again
(DESIGN CHOICE: log 56). -/
def State.opens (s : State) (a b : Endpoint) : Bool :=
  if a.leaf = b.leaf then s.linkUp? a.leaf b.port
  else (s.uplinks a.leaf).any fun m => s.routeUp (32 + m) [b.leaf, b.port]

/-- Whether a message's packet can cross to where it goes: between its cluster and the line's home slice, or between that slice and
the line's GDDR 7 controller (R383, R384). -/
def State.crosses (s : State) (m : Msg) : Bool :=
  let slice := Endpoint.slice (lineHome m.line).1
  match m.what with
  | .dram .. => s.opens (.dram (dramController m.line)) slice
  | k => if k.up then s.opens (.cluster m.cluster) slice else s.opens slice (.cluster m.cluster)

/-- Entry i of the on-chip map (R389). -/
def State.chipMap (s : State) (i : Nat) : Nat :=
  if 48 ≤ i then 0
  else 2 ^ 63 + ((iota 0 16).map fun p => if s.linkUp? i p then 2 ^ p else 0).sum
    + (if 32 ≤ i ∧ s.nocAvoid.getLsbD (i - 32) then 2 ^ 16 else 0)

/-- TMAPQ: a word that cannot be read has no stated value. -/
def Issue.tmapq (x : Issue) (lt : Nat × Thread) : Nat :=
  let i := x.a lt 32
  if i < 64 then x.s.chipMap i
  else
    let free := x.s.freeNat (saltOf lt.1 7 0) % 2 ^ 64
    match x.s.mapWord x.team.die x.ctx 0 with
    | none => free
    | some h =>
      if 17 + 288 * mapNsw h ≤ i - 64 then 0
      else (x.s.mapWord x.team.die x.ctx (i - 64)).getD free

/-! ## The waybill and its check (R386, R387, R390) -/

def wbHop (w h : Nat) : Nat := bits w (64 + 12 * h) 12
def wbPort (w h : Nat) : Nat := wbHop w h % 512
def wbVc (w h : Nat) : Nat := bits (wbHop w h) 9 2
def wbDl (w h : Nat) : Bool := bit (wbHop w h) 11
def wbHops (w : Nat) : Nat := bits w 4 5
def wbDest (w : Nat) : Nat := bits w 18 21
def wbPrio (w : Nat) : Nat := bits w 16 2

/-- CHECKSUM as it should be: the complement of the XOR of the halfwords, with CHECKSUM and CUR read as zero. -/
def wbSum (w : Nat) : Nat :=
  let z := w - bits w 48 16 * 2 ^ 48 - bits w 9 4 * 2 ^ 9
  65535 - (iota 0 16).foldl (fun a k => a ^^^ bits z (16 * k) 16) 0

/-- What the walk reads: a port word by its index, the number of switches, and which of the device's ports are in waybill
mode. -/
structure MapView where
  word : Nat → Option Nat
  /-- The word would come from a poisoned sector. -/
  poison : Nat → Bool
  nsw : Nat
  mode : Nat → Bool

/-- The port word at a switch or the device: none where it lies past the map or cannot be read. -/
def MapView.port (m : MapView) (sw : Option Nat) (p : Nat) : Option Nat :=
  if sw.any (m.nsw ≤ ·) then none else m.word (portIndex sw p)

/-- The ports an ANY-UP hop may take; none where a word cannot be read. -/
def MapView.upPorts (m : MapView) (sw : Option Nat) : Option (List Nat) :=
  let n := if sw.isNone then 16 else 288
  if (iota 0 n).any fun p => m.poison (portIndex sw p) || (m.port sw p).isNone then none
  else some ((iota 0 n).filter fun p =>
    let e := (m.port sw p).getD 0
    bit e 63 && bit e 62 && bit e 61 && (sw.isSome || m.mode p))

/-- Why a port word is missing at a hop: MAP; or 0 with its index for a poisoned one, which kills the context. -/
def MapView.lost (m : MapView) (sw : Option Nat) (ps : List Nat) (h : Nat) : Nat × Nat :=
  match ps.find? fun p => m.poison (portIndex sw p) || (m.port sw p).isNone with
  | some p => if !sw.any (m.nsw ≤ ·) && m.poison (portIndex sw p) then (0, portIndex sw p) else (0x0D, h)
  | none => (0x0D, h)

/-- WALK and STEP of R390: the first failure, its reason and hop. -/
def MapView.walk (m : MapView) (w fuel h : Nat) (sw : Option Nat) (down : Bool) (cls : Nat) : Option (Nat × Nat) :=
  match fuel with
  | 0 => none
  | fuel + 1 =>
    let last := h + 1 = wbHops w
    let step := fun (p : Nat) =>
      match if m.poison (portIndex sw p) then none else m.port sw p with
      | none => some (m.lost sw [p] h)
      | some e =>
        let vc := wbVc w h
        let rise := (down && bit e 61) || wbDl w h
        let turn := if h = 0 then none
          else if vc < cls then some (8, h)
          else if rise && cls == 3 then some (9, h)
          else if rise && vc == cls then some (7, h)
          else none
        if !bit e 63 then some (5, h)
        else if !bit e 62 || (h == 0 && !m.mode p) then some (6, h)
        else match turn with
          | some t => some t
          | none =>
            if !last ∧ bit e 60 then some (0x0A, h)
            else if last ∧ (!bit e 60 ∨ bits e 9 21 ≠ wbDest w) then some (0x0A, h)
            else m.walk w fuel (h + 1) (some (bits e 9 24)) (down || !bit e 61) vc
    if wbPort w h = 511 then
      if down ∨ last then some (0x0C, h)
      else match m.upPorts sw with
        | none => some (m.lost sw (iota 0 (if sw.isNone then 16 else 288)) h)
        | some [] => some (0x0C, h)
        | some q => q.findSome? step
    else if 287 < wbPort w h ∨ (h = 0 ∧ 15 < wbPort w h) then some (5, h)
    else step (wbPort w h)

def State.mapView (s : State) (die : Nat) (c : Context) (h : Nat) : MapView :=
  { word := s.mapWord die c, poison := s.mapPoisoned die c, nsw := mapNsw h, mode := fun p => (s.ports[p]?).any (·.waybillMode) }

/-- The check of R390 on a waybill at a local offset: reason and hop; reason 0 and its index where it meets a poisoned word of the
map. -/
def State.wbCheck (s : State) (die : Nat) (c : Context) (off w : Nat) : Option (Nat × Nat) :=
  if off % 32 ≠ 0 then some (0x0B, 0)
  else if w % 16 ≠ 1 ∨ bits w 39 9 ≠ 0 then some (1, 0)
  else if wbHops w = 0 ∨ 16 < wbHops w then some (2, 0)
  else if bits w 9 4 ≠ 0 then some (3, 0)
  else if bits w 48 16 ≠ wbSum w then some (4, 0)
  else if s.mapPoisoned die c 0 then some (0, 0)
  else match s.mapWord die c 0 with
    | none => some (0x0D, 0)
    | some h =>
      if !headerOk s h then some (0x0D, 0)
      else (s.mapView die c h).walk w (wbHops w) 0 none false (wbVc w 0)

/-- The port by which a checked waybill leaves: hop 0's, or one of those an ANY-UP hop may take. -/
def State.leavePort (s : State) (die : Nat) (k : List Nat) (c : Context) (w : Nat) : Nat :=
  if wbPort w 0 = 511 then
    match (s.mapWord die c 0).bind fun h => (s.mapView die c h).upPorts none with
    | some q => q.getD (s.choose k (max 1 q.length)) 0
    | none => 0
  else wbPort w 0

/-! ## The fabric instructions (R342, R345) -/

/-- AMSG to the executing device. -/
def Issue.localForm (x : Issue) (lt : Nat × Thread) : Bool := x.op == 0xF1 && x.a lt 32 == 2 ^ 32 - 1

def Issue.waybill (x : Issue) (lt : Nat × Thread) : Nat := ofBytes (x.team.locBytes (x.a lt 32) 32)

/-- LOCAL_RANGE of an AMSG's payload: a byte at or beyond LOCALSIZE, or an offset that is no multiple of 16. DESIGN CHOICE: the latter
is reported as LOCAL_OVER at that offset (log 114; R24 and R342 name no byte for it). -/
def payloadErr (x : Issue) (lt : Nat × Thread) : Option Nat :=
  if x.op ≠ 0xF1 then none
  else match localErr x.team .read (x.c lt 32) 32 with
    | some i => some i
    | none => if x.c lt 32 % 16 ≠ 0 then some (xinfo 13 .read 3 (x.c lt 32)) else none

/-- LOCAL_RANGE of a waybill or a payload, at the lowest byte of both (R24, R342). -/
def fabricLocalErr (x : Issue) (lt : Nat × Thread) : Option Nat :=
  match (if x.localForm lt then none else localErr x.team .read (x.a lt 32) 32), payloadErr x lt with
  | some i, some j => some (if j % 2 ^ 52 < i % 2 ^ 52 then j else i)
  | some i, none => some i
  | none, j => j

def remoteAlignErr (x : Issue) (lt : Nat × Thread) : Option Nat :=
  let n := if x.op = 0xF2 then x.size else if x.op = 0xF3 then 8 else 1
  let va := x.b lt 64
  let acc := if x.op = 0xF2 then 1 else 3
  if va % n ≠ 0 then some (n.log2 * 2 ^ 61 + acc * 2 ^ 58 + va % 2 ^ 52) else none

def Issue.wbCheck (x : Issue) (lt : Nat × Thread) : Option (Nat × Nat) :=
  if x.localForm lt then none else x.s.wbCheck x.team.die x.ctx (x.a lt 32) (x.waybill lt)

def waybillErr (x : Issue) (lt : Nat × Thread) : Option Nat :=
  (x.wbCheck lt).map fun e => e.1 * 2 ^ 58 + e.2 * 2 ^ 54 + x.a lt 32

/-- What a participant's operation does at its target. -/
def Issue.remoteKind (x : Issue) (lt : Nat × Thread) : RemoteKind :=
  if x.op = 0xF0 then .wbsend x.f.x21.toNat (x.c lt 64)
  else if x.op = 0xF2 then .rstore x.size (x.c lt x.f.mods.ty.regBits % 2 ^ x.f.mods.ty.bits)
  else if x.op = 0xF3 then .rsig (x.c lt 64)
  else .amsg x.f.x21.toNat (x.team.locBytes (x.c lt 32) 32)

/-- A participant's operation is issued; it is sent once what R134 and R342 put before it is done. -/
def Issue.remoteOne (x : Issue) (s : State) (lt : Nat × Thread) : State :=
  let loc := x.localForm lt
  let r : Remote := {
    id := s.seq, core := x.team.pkCore, uid := x.team.uid, tid := lt.2.tid, ctx := x.grid.ctx, gid := x.grid.gid,
    pc := x.pc.toNat, va := x.b lt 64, what := x.remoteKind lt
    waybill := if loc then none else some (BitVec.ofNat 256 (x.waybill lt))
    port := if loc then 0 else x.s.leavePort x.team.die (saltOf lt.1 7 0) x.ctx (x.waybill lt) }
  ({ s with remotes := s.remotes ++ [r] }).tick

/-- The thread's earlier local stores to the waybill and the payload, which the instruction reads, have performed (R116). -/
def fabricReady (x : Issue) (s : State) (lt : Nat × Thread) : Bool :=
  (x.localForm lt || !s.locBusy x.team.uid lt.2.tid (x.a lt 32) 32)
    && (x.op != 0xF1 || !s.locBusy x.team.uid lt.2.tid (x.c lt 32) 32)

/-- A participant that reads a poisoned word of the map, by its index, kills its context (R377, R380). -/
def mapSound (bad : Issue → Nat × Thread → Option Nat) (body : Issue → State → State × Out) (x : Issue) (s : State) : State × Out :=
  match x.parts.findSome? (bad x) with
  | some i => (s.killPoisoned x.grid.ctx (x.ctx.mapBase.toNat + 8 * i), .handled)
  | none => body x s

/-- The poisoned word that the check of a participant's waybill meets. -/
def wbPoisoned (x : Issue) (lt : Nat × Thread) : Option Nat := (x.wbCheck lt).bind fun e => if e.1 = 0 then some e.2 else none

def fabricBody (x : Issue) (s : State) : State × Out := (x.parts.foldl x.remoteOne s, .go)

/-- The checks of R342 in their order: those of the waybill read it, once the thread's own stores to it have performed. -/
def fabricOp : Issue → State → State × Out :=
  nacksFirst (unlessRaised Cause.localRange fabricLocalErr (unlessRaised Cause.misalignedAtomic remoteAlignErr
    (whenReady fabricReady (mapSound wbPoisoned (unlessRaised Cause.waybillCheck waybillErr fabricBody)))))

def execWbsend (f : Fields) (s : State) := runWave 0xF0 f fabricOp s
def execAmsg (f : Fields) (s : State) := runWave 0xF1 f fabricOp s
def execRstore (f : Fields) (s : State) := runWave 0xF2 f fabricOp s
def execRsig (f : Fields) (s : State) := runWave 0xF3 f fabricOp s

/-- WBCHK's result (R345). -/
def Issue.wbchk (x : Issue) (lt : Nat × Thread) : Nat :=
  match x.wbCheck lt with
  | some e => 2 ^ 31 + e.2 * 256 + e.1
  | none => 0

def execWbchk (f : Fields) (s : State) :=
  runWave 0xF4 f (nacksFirst (unlessRaised Cause.localRange fabricLocalErr
    (whenReady fabricReady (mapSound wbPoisoned (computes 32 Issue.wbchk))))) s

/-- The poisoned word that TMAPQ reads: the header, or the word that it names in the map. -/
def tmapqPoisoned (x : Issue) (lt : Nat × Thread) : Option Nat :=
  let i := x.a lt 32 - 64
  if x.a lt 32 < 64 then none
  else if x.s.mapPoisoned x.team.die x.ctx 0 then some 0
  else match x.s.mapWord x.team.die x.ctx 0 with
    | some h => if i < 17 + 288 * mapNsw h ∧ x.s.mapPoisoned x.team.die x.ctx i then some i else none
    | none => none

def execTmapq (f : Fields) (s : State) :=
  runWave 0xF5 f (nacksFirst (mapSound tmapqPoisoned (computes 64 Issue.tmapq))) s

/-! ## Sending (R134, R342, R384) -/

/-- Bytes of the target that an operation touches. -/
def Remote.len (r : Remote) : Nat :=
  match r.what with
  | .wbsend n _ => n
  | .rstore n _ => n
  | .rsig _ => 8
  | .amsg .. => 1

/-- The device an operation goes to: none for this one. -/
def Remote.dest (r : Remote) : Option Nat := r.waybill.map fun w => wbDest w.toNat

/-- Operations of one thread that touch one remote line. -/
def Remote.meets (a b : Remote) : Bool :=
  a.uid == b.uid && a.tid == b.tid && a.dest == b.dest
    && decide (a.va / 128 ≤ (b.va + b.len - 1) / 128 ∧ b.va / 128 ≤ (a.va + a.len - 1) / 128)

/-- Whether an operation may be sent now. -/
def State.remoteReady (s : State) (r : Remote) : Bool :=
  !(s.remotes.any fun o => decide (o.id < r.id) && o.refused.isNone && o.meets r)
    && match r.what with
      | .wbsend n src => storesDone s (.range src (src + n)) .pk r.uid r.tid r.id
      | .rsig _ => (s.thread? r.uid r.tid).all (loadsBound .normal r.id) && storesDone s .normal .sy r.uid r.tid r.id
        && clusterDone s .normal .sy (r.core / 4) r.id && remotesDone s .sy r.core r.uid r.tid r.id
      | _ => true

def State.updRemote (s : State) (id : Nat) (f : Remote → Remote) : State :=
  { s with remotes := updWhere (·.id == id) f s.remotes }

/-- The bytes of a packet at most (R383). -/
def packetLimit : Nat := 4096

/-- The pieces of a packet's size of bytes from an offset on; at least one. -/
def wbPieces (fuel first : Nat) (data : List Byte) : List (Nat × List Byte) :=
  match fuel with
  | 0 => [(first, data)]
  | fuel + 1 =>
    if data.length ≤ packetLimit then [(first, data)]
    else (first, data.take packetLimit) :: wbPieces fuel (first + packetLimit) (data.drop packetLimit)

/-- The packets of an operation start at its core's leaf, for an endpoint (R383, R384). -/
def State.startPackets (s : State) (r : Remote) (b : Endpoint) (prio : Nat) (ds : List (Nat × List Byte)) : State :=
  let a := Endpoint.cluster (r.core / 4)
  match ds with
  | [] => s
  | d :: rest =>
    let p : Packet := { id := s.seq, op := r.id, first := d.1, data := d.2, hops := chipHops a b, switch := a.leaf, inPort := a.port, prio,
                        since := s.now (switchDie a.leaf) }
    let s := { s with packets := s.packets ++ [p] }.tick
    (s.updRemote r.id fun r => { r with parts := r.parts ++ [p.id] }).startPackets r b prio rest

/-- An operation is sent: a WBSEND reads its bytes, or is refused with SOURCE. An AMSG of the local form goes to the home slice; one
whose address has none is refused there (log 101). -/
def State.sendRemote (s : State) (r : Remote) : State :=
  let go := fun (s : State) (data : List Byte) =>
    let s := s.updRemote r.id fun r => { r with sent := true, data, parts := [], out := 0 }
    match r.waybill with
    | some w => s.startPackets r (.fabric r.port) (wbPrio w.toNat) (wbPieces 16 0 data)
    | none => match s.translate (.core r.core) r.ctx r.va 1 .atomic with
      | .ok (p :: _) => s.startPackets r (.slice (lineHome (lineOf p.addr)).1) 0 [(0, [])]
      | _ => (s.updRemote r.id fun r => { r with at? := some (256, s.seq) }).tick
  match r.what with
  | .wbsend n src =>
    if s.poisonedVa (.core r.core) r.ctx src n then s.killPoisoned r.ctx src
    else match s.readVa (.core r.core) r.ctx src n with
      | .ok b => go (s.demandVa (.core r.core) r.ctx src n) b
      | .error _ => s.updRemote r.id fun r => { r with sent := true, refused := some (Cause.fabricNack, 0x26) }
  | _ => go s []

/-- Every operation that may be sent. -/
def State.sendRemotes (s : State) (rs : List Remote) : State :=
  match rs with
  | [] => s
  | r :: rest => State.sendRemotes (if !r.sent && s.remoteReady r then s.sendRemote r else s) rest

/-! ## Answers (R343) -/

/-- Whether all packets of an operation have left the package. -/
def Remote.abroad (r : Remote) : Bool :=
  r.sent && r.refused.isNone && r.waybill.isSome && r.out == r.parts.length

/-- A frame arrives at a port. -/
def State.countIn (s : State) (port : Nat) : State :=
  { s with ports := s.ports.modify port fun p => { p with received := p.received + 1 } }

/-- Whether a port takes frames of other devices (R393). -/
def State.listens (s : State) (port : Nat) : Bool := (s.ports[port]?).any fun p => p.waybillMode && p.up

/-- The cause of a refusal's REASON. -/
def nackCause (reason : Nat) : Nat := if reason < 0x30 then Cause.fabricNack else Cause.reedAbort

def Remote.mayRefuse (r : Remote) (reason : Nat) : Bool :=
  decide (0x21 ≤ reason ∧ reason ≤ 0x25) || (decide (0x30 ≤ reason ∧ reason ≤ 0x32) && match r.what with
    | .amsg .. => true
    | _ => false)

def State.refuse (s : State) (id reason : Nat) : State :=
  s.updRemote id fun r => { r with refused := some (nackCause reason, reason) }

/-- What an answer does to its operation: it is over, or refused. -/
def State.answered (s : State) (id : Nat) (reason : Option Nat) : State :=
  match reason with
  | none => { s with remotes := s.remotes.filter (·.id != id) }
  | some r => s.refuse id r

/-- An answer of another device arrives at the port by which its operation left, and goes back along the reversed path; a switch that
finds the way broken drops it (R391, R392). -/
def State.takeAnswer (s : State) (r : Remote) (reason : Option Nat) : State :=
  if !s.listens r.port then s
  else
    let s := s.countIn r.port
    if s.linkUp? (portLeaf r.port) 28 && s.routeUp (portLeaf r.port) r.back then s.answered r.id reason else s

/-- REMOTE_ACK. -/
def State.remoteAck (s : State) (id : Nat) : State :=
  match s.remotes.find? (·.id == id) with
  | none => s
  | some r => if r.abroad then s.takeAnswer r none else s

/-- FABRIC_NACK. -/
def State.fabricNack (s : State) (id reason : Nat) : State :=
  match s.remotes.find? (·.id == id) with
  | none => s
  | some r => if r.abroad && r.mayRefuse reason then s.takeAnswer r (some reason) else s

/-- Refused operations of a thread and a cause, in order. -/
def State.refusedBy (s : State) (uid tid cause : Nat) : List Remote :=
  (s.refusals uid tid).filter fun r => r.refused.any (·.1 == cause)

/-- A refused operation is issued again, or counts as complete. -/
def State.retryRemote (s : State) (r : Remote) : State :=
  s.updRemote r.id fun r => { r with sent := false, refused := none, reported := false, data := [], parts := [], out := 0, at? := none }
def State.skipRemote (s : State) (r : Remote) : State := { s with remotes := s.remotes.filter (·.id != r.id) }

/-- Refusals whose thread has exited go to the fault handler team: the thread's oldest, while none of it is being handled (R343). -/
def State.reportRemotes (s : State) (rs : List Remote) : State :=
  match rs with
  | [] => s
  | r :: rest =>
    State.reportRemotes (match r.refused with
      | some (cause, reason) =>
        let first := s.remotes.all fun o => !(o.uid == r.uid && o.tid == r.tid && o.refused.isSome && (o.reported || decide (o.id < r.id)))
        if !first || (s.thread? r.uid r.tid).isSome || !s.reportRoom r.ctx then s
        else (s.updRemote r.id fun r => { r with reported := true }).report r.ctx
          ⟨cause, reason * 2 ^ 58 + r.va % 2 ^ 52, r.pc, .remote r.id⟩
      | none => s) rest

/-! ## Arrivals from other devices, and the reed cores (R342, R398) -/

/-- Whether the device serves the host and other devices (R400 step 7). -/
def State.isOpen (s : State) : Bool := s.boot == .openFull

/-- The target's translation: the parts, or the REASON of the refusal. -/
def State.remoteParts (s : State) (ctx va n : Nat) (a : Access) : Except Nat (List Part) :=
  if (s.ctx? ctx).all Context.dying then .error 0x21
  else match s.translate (.die 0) ctx va n a with
    | .error _ => .error 0x22
    | .ok ps =>
      if (permissionErr ps a).isSome then .error 0x23
      else if (ps.findSome? fun p => s.refusal ctx p.addr p.count).isSome then .error 0x24
      else .ok ps

/-- Replaces the PORT of a hop, and counts it as passed (R387). -/
def wbPass (w h port : Nat) : Nat :=
  w - bits w (64 + 12 * h) 9 * 2 ^ (64 + 12 * h) + port % 512 * 2 ^ (64 + 12 * h) - bits w 9 4 * 2 ^ 9 + (h + 1) % 16 * 2 ^ 9

/-- The hops that a waybill as delivered has passed: CUR, which is 0 again after the sixteenth (R386, R387). -/
def wbPassed (w : Nat) : Nat := if bits w 9 4 = 0 then min 16 (wbHops w) else bits w 9 4

/-- The path back of a waybill that was delivered at a port: the ports by which the answer leaves the device and the switches, the
last hop's first, with the class that the request took on that link, which is that of the hop whose egress it was (R387, R392). -/
def wbBack (w port : Nat) : List (Nat × Nat) :=
  match wbPassed w with
  | 0 => []
  | n + 1 => (port, wbVc w n) :: ((iota 0 n).map fun h => (wbPort w (h + 1), wbVc w h)).reverse

/-- The answer to another device's operation leaves by the port on which the operation arrived. -/
def State.answer (s : State) (v : Via) (reason : Option Nat) : State :=
  { s with
    ports := s.ports.modify v.port fun p => { p with sent := p.sent + 1 }
    frames := s.frames ++ [(⟨v.port, 0, wbBack v.waybill.toNat v.port, .answer reason⟩ : Frame)] }

/-- An operation of another device arrives: by a port in waybill mode, over the package's switches to the home slice of the first byte
of its target, which performs it or refuses it, and answers (R342, R384, R391, R392, R399; log 102). -/
def State.arrival (s : State) (v : Via) (ctx va n : Nat) (a : Access) (act : List Part → State → State × Option Nat) : State :=
  if !s.isOpen || !s.listens v.port then s
  else
    let s := s.countIn v.port
    match s.remoteParts ctx va n a with
    | .error r => s.answer v (some r)
    | .ok [] => s.answer v (some 0x22)
    | .ok (p :: ps) =>
      if s.reaches (.fabric v.port) (.slice (lineHome (lineOf p.addr)).1) [32] then
        let r := act (p :: ps) s
        r.1.answer v r.2
      else s.answer v (some 0x25)

/-- Bytes of an RSTORE, or a packet of a WBSEND, arrive and are written. -/
def State.remoteWrite (s : State) (v : Via) (ctx va : Nat) (data : List Byte) : State :=
  if packetLimit < data.length then s
  else s.arrival v ctx va data.length .write fun ps s =>
    (s.homeWrite (ps.flatMap fun p => cellsAt p.addr ((data.drop (p.va - va)).take p.count)), none)

/-- RSIG_ARRIVAL: an atomic add at the home slice. -/
def State.rsigArrival (s : State) (v : Via) (ctx va addend : Nat) : State :=
  s.arrival v ctx va 8 .atomic fun ps s => match ps with
    | [] => (s, none)
    | p :: _ =>
      let s := s.forceRecall (lineOf p.addr)
      if s.poisoned p.addr 8 then (s.killPoisoned ctx va, none)
      else (s.homeWrite (cellsAt p.addr (toBytes 8 ((Memory.num s.mem p.addr 8 + addend) % 2 ^ 64))), none)

/-- A handler runs on the line of a part of its target: the state after, and the REASON of an abort. -/
def State.runHandler (s : State) (ctx va h : Nat) (payload : List Byte) (p : Part) : State × Option Nat :=
  match ((s.ctx? ctx).bind fun c => c.handlers.find? (·.1 == h)).map (·.2) with
  | none => (s, some 0x32)
  | some code =>
    let line := lineOf p.addr
    let s := s.forceRecall line
    let e : ReedEnv := {
      code, base := 128 * line, data := Memory.bytes s.mem (128 * line) 128, payload, init := fun i => s.freeNat [3, i] }
    match (Reed.start (128 * line) (p.addr % 128)).run e 256 with
    | .abort r => (s, some r)
    | .done r =>
      match r.loads.find? fun a => s.poisoned a 1 with
      | some _ => (s.killPoisoned ctx va, none)
      | none => ((s.demandRead (128 * line) 128).homeWrite r.line, none)

/-- The context in which an arrived AMSG runs. -/
def amsgCtx (source : AmsgFrom) : Nat :=
  match source with
  | .other v => v.ctx
  | .own ctx => ctx

/-- An AMSG of the local form that has arrived, the earliest of those that its home slice has to run (R398). -/
def State.ownArrival (s : State) (ctx va h : Nat) (payload : List Byte) : Option Remote :=
  s.remotes.find? fun r => r.waybill.isNone && r.refused.isNone && r.ctx == ctx && r.va == va && r.what == .amsg h payload
    && r.at?.any fun a => s.remotes.all fun o => o.at?.all fun b => !(b.1 == a.1 && decide (b.2 < a.2))

/-- AMSG_ARRIVAL: from another device, after those that have arrived at its home slice before (R398); or of this device's own local
form, whose answer goes back along the reversed path. -/
def State.amsgArrival (s : State) (source : AmsgFrom) (va h : Nat) (payload : List Byte) : State :=
  match source with
  | .other v =>
    let waits : Bool := match s.remoteParts v.ctx va 1 .atomic with
      | .ok (p :: _) => s.remotes.any fun r => r.at?.any (·.1 == (lineHome (lineOf p.addr)).1)
      | _ => false
    if waits then s
    else s.arrival v v.ctx va 1 .atomic fun ps s => match ps with
      | [] => (s, none)
      | p :: _ => s.runHandler v.ctx va h payload p
  | .own ctx => match s.ownArrival ctx va h payload with
    | none => s
    | some r =>
      let x := match s.remoteParts ctx va 1 .atomic with
        | .error e => (s, some e)
        | .ok [] => (s, some 0x22)
        | .ok (p :: _) => s.runHandler ctx va h payload p
      let s := x.1.updRemote r.id fun r => { r with at? := none }
      if s.routeUp ((r.at?.getD (0, 0)).1 / 8) r.back then s.answered r.id x.2 else s

/-! ## The switches (R384, R391) -/

/-- A packet's age at an egress: it rises by one for each 64 uncore cycles, which are 52 core cycles (R1, R391). -/
def State.ageOf (s : State) (p : Packet) : Nat := min 15 (p.age + (s.now (switchDie p.switch) - p.since) / 52)

/-- The operation of a packet, if the packet still counts for it. -/
def State.opOf (s : State) (p : Packet) : Option Remote := s.remotes.find? fun r => r.id == p.op && r.parts.contains p.id

/-- A packet finds no usable hop: it is dropped, and its sender receives UNREACHABLE along the reversed path. -/
def State.dropPacket (s : State) (p : Packet) : State :=
  let s := { s with packets := s.packets.filter (·.id != p.id) }
  match s.opOf p with
  | some r => if r.refused.isNone && s.routeUp p.switch (p.inPort :: (p.hops.take p.cur).reverse) then s.refuse r.id 0x25 else s
  | none => s

/-- The hop that a packet takes next. -/
def Packet.hop (p : Packet) : Nat := p.hops.getD p.cur 0

/-- Whether a packet at a switch would leave by a port, if by any. -/
def State.wants (s : State) (p : Packet) (port : Nat) : Bool :=
  if p.hop = 511 then (s.uplinks p.switch).contains port || (s.uplinks p.switch).isEmpty else p.hop == port

/-- The packet that an egress port takes (R391): aged ones round-robin by input port, then PRIO, age, the lower input port. -/
def arbitrate (last : Nat) (ps : List Packet) : Option Packet :=
  match ps.filter (·.age == 15) with
  | [] => minBy (fun p => ((3 - p.prio) * 16 + (15 - p.age)) * 64 + p.inPort) ps
  | aged => minBy (fun p => (p.inPort + 63 - last) % 64) aged

/-- A packet has passed a hop: its waybill names the port on which it came (R387). -/
def Packet.pass (p : Packet) : Packet := { p with hops := p.hops.set p.cur p.inPort, cur := p.cur + 1 }

/-- A packet reaches its endpoint: a fabric port sends it in a frame, or a home slice has it. Its operation knows the way back. -/
def State.deliver (s : State) (p : Packet) : State :=
  let s := { s with packets := s.packets.filter (·.id != p.id) }
  match s.opOf p with
  | none => s
  | some r =>
    let s := s.updRemote r.id fun r => { r with back := p.pass.hops.reverse, out := r.out + 1 }
    match r.waybill with
    | some w =>
      { s with
        ports := s.ports.modify r.port fun q => { q with sent := q.sent + 1 }
        frames := s.frames ++ [(⟨r.port, BitVec.ofNat 256 (wbPass w.toNat 0 r.port), [], .request r.ctx r.va r.what p.first p.data⟩ : Frame)] }
    | none => (s.updRemote r.id fun r => { r with at? := some (8 * p.switch + (p.hop - 20), s.seq) }).tick

/-- Whether a packet's fabric port can send it, where it is at its last hop. -/
def State.portReady (s : State) (p : Packet) : Bool :=
  match s.opOf p with
  | some r => r.waybill.isNone || s.listens r.port
  | none => true

/-- PACKET_FORWARD. -/
def State.packetForward (s : State) (sw port : Nat) : State :=
  let here := (s.packets.filter fun p => p.switch == sw && s.wants p port).map fun p => { p with age := s.ageOf p }
  match arbitrate (Sparse.get 63 s.served (32 * sw + port)) here with
  | none => s
  | some p =>
    let s := { s with served := Sparse.put 63 s.served (32 * sw + port) p.inPort }
    if !s.linkUp? sw port || (p.hop == 511 && (s.uplinks sw).isEmpty) then s.dropPacket p
    else if p.hops.length ≤ p.cur + 1 then (if s.portReady p then s.deliver p else s.dropPacket p)
    else
      let next := nextSwitch sw port
      let q := { p.pass with switch := next, inPort := if sw < 32 then sw else sw - 32, since := s.now (switchDie next) }
      { s with packets := updWhere (·.id == p.id) (fun _ => q) s.packets }

/-- PACKET_AGE_TICK: the age of a packet rises with each 64 uncore cycles. -/
def State.packetAgeTick (s : State) (id : Nat) : State :=
  let tick := fun (p : Packet) =>
    if p.since + 52 ≤ s.now (switchDie p.switch) then { p with age := min 15 (p.age + 1), since := p.since + 52 } else p
  { s with packets := updWhere (·.id == id) tick s.packets }

/-- Packets that stand at the egress of a link. -/
def State.atLink (s : State) (p : Packet) (l : Link) : Bool :=
  match l with
  | .fabric q => p.switch == portLeaf q && p.hop == 28 && (s.opOf p).any fun r => r.port == q
  | .chip sw port => p.switch == sw && p.hop == port

/-- LINK_FAILURE and LINK_UP. -/
def State.linkFailure (s : State) (l : Link) : State :=
  let s := match l with
    | .fabric p => { s with ports := s.ports.modify p fun q => { q with up := false } }
    | .chip sw port => if s.nocDown.contains (sw, port) then s else { s with nocDown := s.nocDown ++ [(sw, port)] }
  let back := match l with
    | .fabric p => Link.fabric p
    | .chip sw port => Link.chip (mirror sw port).1 (mirror sw port).2
  (s.packets.filter fun p => s.atLink p l || s.atLink p back).foldl State.dropPacket s

def State.linkUp (s : State) (l : Link) : State :=
  match l with
  | .fabric p => { s with ports := s.ports.modify p fun q => { q with up := true } }
  | .chip sw port => { s with nocDown := s.nocDown.filter fun x => x != (sw, port) && x != mirror sw port }

end Sys2Proof.Machine
end

