-- ==== Sys2Proof/Machine/Host.lean ====
section
/-! DEFINITION. The host: UE remote memory access, the command endpoint and its commands (R133, R393 to R398, R402 to R405),
contexts that become resident and leave (R355, R356), and bring-up, wipe and power (R400 to R407). -/

namespace Sys2Proof.Machine

/-! ## UE remote memory access (R133) -/

/-- A completion of a UE access: a message of the model's own codes, 2^16 for a write and 2^16 + 1 for a read; the status is 1
for an error response. -/
def State.ueReply (s : State) (h : CmdHdr) (code status : Nat) (body : List Byte) : State :=
  s.post ⟨h.port, h.host, h.ctx, h.tag, code, status, body⟩

/-- A UE access arrives at a port in UE mode. -/
def State.ueAccess (s : State) (h : CmdHdr) (act : State → State) : State :=
  if s.isOpen && s.hears h.port then act (s.heard h.port) else s

/-- The cells of a UE write. A number past the 16 bits of a context number stands for physical addresses (log 24). -/
def State.ueCells (s : State) (ctx va : Nat) (data : List Byte) : Option (List Host.Cell) :=
  if 2 ^ 16 ≤ ctx then (if va + data.length ≤ paLimit then some (cellsAt va data) else none)
  else match s.writeCells (.die 0) ctx va data .write with
    | .ok cells => some cells
    | .error _ => none

/-- HOST_UE_WRITE: performed at the home slices, and completed. -/
def State.ueWrite (s : State) (h : CmdHdr) (va : Nat) (data : List Byte) : State :=
  s.ueAccess h fun s => match s.ueCells h.ctx va data with
    | some cells => (s.homeWrite cells).ueReply h (2 ^ 16) 0 []
    | none => s.ueReply h (2 ^ 16) 1 []

/-- The bytes of a UE read; none for a poisoned sector (R380), or an address that cannot be read. -/
def State.ueBytes (s : State) (ctx va n : Nat) : Option (List Byte) :=
  if 2 ^ 16 ≤ ctx then (if va + n ≤ paLimit ∧ !s.poisoned va n then some (Memory.bytes s.mem va n) else none)
  else if s.poisonedVa (.die 0) ctx va n then none
  else match s.readVa (.die 0) ctx va n with
    | .ok b => some b
    | .error _ => none

/-- HOST_UE_READ: a poisoned sector, or an address that cannot be read, has an error response. -/
def State.ueRead (s : State) (h : CmdHdr) (va n : Nat) : State :=
  s.ueAccess h fun s => match s.ueBytes h.ctx va n with
    | some b => ((if 2 ^ 16 ≤ h.ctx then s.demandRead va n else s.demandVa (.die 0) h.ctx va n)).ueReply h (2 ^ 16 + 1) 0 b
    | none => s.ueReply h (2 ^ 16 + 1) 1 []

/-! ## The command endpoint (R394, R395) -/

/-- The reply to a command. -/
def State.reply (s : State) (h : CmdHdr) (cmd status : Nat) (body : List Byte) : State :=
  s.post ⟨h.port, h.host, h.ctx, h.tag, cmd, status, body⟩

/-- A reply with a status code and no body. -/
def State.deny (s : State) (h : CmdHdr) (cmd code : Nat) : State := s.reply h cmd (statusWord code 0) []

/-- Whether a body's length is that of its command: false for a code that names none. -/
def cmdFits (cmd n : Nat) : Bool :=
  match cmd with
  | 0x01 | 0x02 => n == 128
  | 0x03 | 0x04 | 0x05 | 0x10 | 0x13 => n == 0
  | 0x06 | 0x07 | 0x09 | 0x0A | 0x0B | 0x14 => n == 4
  | 0x08 => n == 20
  | 0x0C => n == 2
  | 0x0D => decide (4 ≤ n ∧ n ≤ 1028)
  | 0x11 => n == 64
  | 0x12 => n == 136
  | _ => false

/-- A command that runs to completion over several steps: a pre-emption, a kill by the host, or an unload that waits for a grid. -/
def State.commanding (s : State) : Bool :=
  s.contexts.any fun c => c.unloading.isSome || match c.status with
    | .preempting .. => true
    | .dying (some _) => true
    | _ => false

/-- Header fields of their widths. -/
def normHdr (h : CmdHdr) : CmdHdr := ⟨h.tag % 2 ^ 16, h.ctx % 2 ^ 16, h.port, h.host⟩

/-- A command is performed: the endpoint's stage of R400 first, then LEN, then the command's own meaning. A command for which
the endpoint is not there, or that finds another in progress, is not performed yet. -/
def State.command (s : State) (cmd : Nat) (h : CmdHdr) (body : List Byte) (act : CmdHdr → State → State) : State :=
  let h := normHdr h
  let heard := s.heard h.port
  let run := if cmdFits cmd body.length then act h heard else heard.deny h cmd 0x49
  if !s.hears h.port || s.commanding then s
  else match s.boot with
    | .held => s
    | .step n => if n < 5 then s else if cmd = 0x10 ∨ cmd = 0x13 then run else heard.deny h cmd 0x48
    | .recovery => if cmd = 0x10 ∨ cmd = 0x13 then run else heard.deny h cmd 0x4B
    | .openFull => run

/-- A context that is resident and not being contained (log 25). -/
def State.resident? (s : State) (num : Nat) : Option Context := (s.ctx? num).filter fun c => !c.dying

/-! ## LAUNCH (R349) -/

def State.hostLaunch (s : State) (h : CmdHdr) (body : List Byte) : State :=
  s.command 0x01 h body fun h s =>
    match s.launchErr 0 none body with
    | some r => s.reply h 0x01 (statusWord 0x19 r) []
    | none =>
      let r := parseLaunch body
      let x := s.accept (.host 0) 1 r ((s.imagePages 0 r).getD [])
      x.1.reply h 0x01 0 (toBytes 8 x.2)

/-! ## Contexts become resident (R354, R355, R373) -/

/-- The context of a descriptor. -/
def parseContext (h : CmdHdr) (d : List Byte) : Context :=
  { num := h.ctx, port := h.port, host := h.host
    xroot := BitVec.ofNat 64 (field d 0 8), trapEntry := BitVec.ofNat 64 (field d 8 8)
    fhRec := BitVec.ofNat 64 (field d 16 8), assertRec := BitVec.ofNat 64 (field d 24 8)
    dlrBase := BitVec.ofNat 64 (field d 32 8), dlrSize := field d 40 4, pquota := field d 44 4, lquota := field d 48 4
    pwLen := field d 52 1, cprio := field d 53 1, rsvTeams := field d 54 2, pwBase := BitVec.ofNat 64 (field d 56 8)
    mapBase := BitVec.ofNat 64 (field d 64 8), swapBase := BitVec.ofNat 64 (field d 72 8)
    swapLen := BitVec.ofNat 64 (field d 80 8), rsvRec := BitVec.ofNat 64 (field d 88 8) }

/-- Whether a descriptor breaks a limit (R8, R85, R354). -/
def descriptorBad (d : List Byte) : Bool :=
  let root := field d 0 8
  let n := field d 40 4
  (d.drop 96).any (· != 0) || bits root 48 16 != 0 || bits root 1 12 != 0 || bits root 39 9 != 0
    || field d 8 8 % 4 != 0 || field d 32 8 % 128 != 0
    || decide (n < 16 ∨ 1048576 < n ∨ 2 ^ n.log2 ≠ n) || decide (2097152 < field d 48 4)
    || decide (8 < field d 52 1) || decide (7 < field d 53 1) || decide (8192 < field d 54 2)
    || field d 56 8 % 2 ^ 29 != 0 || field d 72 8 % 2 ^ 16 != 0 || field d 80 8 % 2 ^ 16 != 0

/-- Whether a record names a shape that a team can have (R349). -/
def LaunchRec.shapeOk (r : LaunchRec) : Bool :=
  decide (0 < r.teamSize ∧ r.teamSize ≤ 1024 ∧ 8 ≤ r.vregs ∧ r.vregs ≤ 512 ∧ r.vregs % 8 = 0 ∧ r.locals ≤ 1048576 ∧ r.tdcount ≤ 64)

/-- The reservation of a context that is being loaded: the shape and the cores; none where it cannot be held. -/
def State.reservation (s : State) (c : Context) : Option (Option LaunchRec × List Nat) :=
  if c.rsvTeams = 0 then some (none, [])
  else match s.readVa (.die 0) c.num c.rsvRec.toNat 128 with
    | .error _ => none
    | .ok b =>
      let r := parseLaunch b
      if r.shapeOk then (s.reserveFor r.shape c.rsvTeams).map fun l => (some r, l) else none

/-- The fault handler team's grid is launched at depth 1; a launch that is refused leaves the context without one. -/
def State.startHandler (s : State) (num : Nat) : State :=
  match s.ctx? num with
  | none => s
  | some c =>
    if c.fhRec.toNat = 0 ∨ c.fhRec.toNat % 128 ≠ 0 then s
    else match s.readVa (.die 0) num c.fhRec.toNat 128 with
      | .error _ => s
      | .ok b =>
        if (s.launchErr 0 (some num) b).isSome then s
        else
          let r := parseLaunch b
          let x := s.accept .faultHandler 1 r ((s.imagePages 0 r).getD [])
          x.1.updCtx num fun c => { c with fhGid := some x.2 }

def State.contextLoad (s : State) (h : CmdHdr) (body : List Byte) : State :=
  s.command 0x02 h body fun h s =>
    let c := parseContext h body
    let s1 := { s with contexts := s.contexts ++ [c] }
    if (s.ctx? h.ctx).isSome then s.deny h 0x02 0x44
    else if descriptorBad body then s.deny h 0x02 0x40
    else if 16 ≤ s.contexts.length then s.deny h 0x02 0x41
    else match s1.reservation c with
      | none => s.deny h 0x02 0x42
      | some r =>
        ((s1.updCtx h.ctx fun c => { c with rsvShape := r.1, rsvSlots := r.2 }).startHandler h.ctx).reply h 0x02 0 []

/-! ## Contexts leave (R22, R80, R82, R85, R90, R331, R335, R356) -/

/-- The window leaves that the device wrote are cleared. -/
def State.clearLeaves (s : State) (c : Context) : State :=
  c.windowLeaves.foldl (fun s pg => match s.leafAddr c (pg * 2 ^ 16) with
    | some a => s.homeWrite (cellsAt a (toBytes 8 0))
    | none => s) s

/-- The number that stands for a context that has left: its parcels' entries stay until they are evicted, and its granules are
another's (R27, R80, R82). -/
def goneCtx : Nat := 65536

/-- A context's parcels as it leaves: those that are not loaded go, a FILLING one is evicted as its fill ends, others at once. -/
def leaveParcelTable (num : Nat) (ps : List Parcel) : List Parcel :=
  let leave := fun (p : Parcel) =>
    { p with ctx := goneCtx, state := if p.state = .filling then .filling else .evicting, entered := 0, freed := true, kept := [] }
  updWhere (·.ctx == num) leave (ps.filter fun p => p.ctx != num || p.state != .absent)

/-- The polders of a context, and what the home slices still serve of them, end (R90). -/
def State.dropPolders (s : State) (num : Nat) : State :=
  let ids := (s.polders.filter (·.ctx == num)).map (·.id) ++ (s.ending.filter (·.ctx == num)).map (·.id)
  ids.foldl State.discardPolder { s with polders := s.polders.filter (·.ctx != num) }

/-- A departure: work, parcels, leases, window leaves, translations, events, offices, handlers, reservation and slot. -/
def State.depart (s : State) (num : Nat) : State :=
  match s.ctx? num with
  | none => s
  | some c =>
    let s := s.stopWork num
    let s := (s.dropPolders num).clearLeaves c
    let cmds := (s.couriers.filter (·.ctx == num)).map (·.id) ++ (s.matrix.filter (·.ctx == num)).map (·.id)
    let ops := (s.remotes.filter (·.ctx == num)).map (·.id)
    { s with
      parcels := leaveParcelTable num s.parcels
      pacDue := true
      granuleCtx := s.granuleCtx.map fun (g : Nat × Nat) => if g.2 = num then (g.1, goneCtx) else g
      couriers := s.couriers.filter (·.ctx != num)
      matrix := s.matrix.filter (·.ctx != num)
      embargoes := s.embargoes.filter fun e => !cmds.contains e.cmd
      remotes := s.remotes.filter (·.ctx != num)
      packets := s.packets.filter fun p => !ops.contains p.op
      tlb := s.tlb.filter (·.ctx != num)
      walks := s.walks.filter (·.ctx != num)
      mapCache := s.mapCache.filter (·.ctx != num)
      events := s.events.filter (·.2.1 != num)
      offices := s.offices.filter (·.ctx != num)
      grids := s.grids.filter (·.ctx != num)
      contexts := s.contexts.filter (·.num != num) }

/-- A grid of a context is live: its fault handler team's does not count (R355, R373). -/
def State.gridLive (s : State) (c : Context) : Bool := s.grids.any fun g => g.ctx == c.num && c.fhGid != some g.gid

/-- CONTEXT_UNLOAD; after a launch that was accepted in the same cycle it waits for the grid (R369). -/
def State.contextUnload (s : State) (h : CmdHdr) (body : List Byte) : State :=
  s.command 0x03 h body fun h s =>
    match s.resident? h.ctx with
    | none => s.deny h 0x03 0x44
    | some c =>
      if !s.gridLive c then (s.depart h.ctx).reply h 0x03 0 []
      else if s.happened [14, h.ctx] then s.updCtx h.ctx fun c => { c with unloading := some h }
      else s.deny h 0x03 0x48

/-- Unloads that have waited for their grids. -/
def State.settleUnloads (s : State) (cs : List Context) : State :=
  match cs with
  | [] => s
  | c :: rest =>
    State.settleUnloads (match c.unloading with
      | some h => if s.gridLive c then s else (s.depart c.num).reply h 0x03 0 []
      | none => s) rest

/-! ## Stop, kill, pre-emption and flip (R368, R375, R378, R379) -/

def State.contextResume (s : State) (h : CmdHdr) (body : List Byte) : State :=
  s.command 0x04 h body fun h s =>
    if (s.ctx? h.ctx).any fun c => c.status == .stopped || c.status == .preempted then
      (s.updCtx h.ctx fun c => { c with status := .running }).reply h 0x04 0 []
    else s.deny h 0x04 0x44

/-- CONTEXT_KILL: the reply follows the containment. A kill already in progress is awaited. -/
def State.contextKill (s : State) (h : CmdHdr) (body : List Byte) : State :=
  s.command 0x05 h body fun h s =>
    match s.ctx? h.ctx with
    | none => s.deny h 0x05 0x44
    | some c =>
      if c.dying then s.updCtx h.ctx fun c => { c with status := .dying (some h) }
      else s.kill h.ctx ⟨2, Cause.hostKill, false, none, 0⟩ (some h)

/-- Core cycles of a microsecond (R1: 1.3 GHz). -/
def cyclesPerMicrosecond : Nat := 1300

def State.preempt (s : State) (h : CmdHdr) (body : List Byte) : State :=
  s.command 0x06 h body fun h s =>
    let us := field body 0 4
    match s.resident? h.ctx with
    | none => s.deny h 0x06 0x44
    | some c =>
      if c.status = .stopped then s.deny h 0x06 0x44
      else if us = 0 ∨ 1000000 < us then s.deny h 0x06 0x47
      else s.updCtx h.ctx fun c => { c with status := .preempting (s.now 0 + cyclesPerMicrosecond * us) h }

/-- FLIP: CPRIO at the dispatchers and at the PAC, in one step. -/
def State.flip (s : State) (h : CmdHdr) (body : List Byte) : State :=
  s.command 0x07 h body fun h s =>
    let a := field body 0 2
    let b := field body 2 2
    match s.resident? a, s.resident? b with
    | some x, some y =>
      let prio := fun (num old : Nat) => if num = a then y.cprio else if num = b then x.cprio else old
      ({ s with
        contexts := s.contexts.map fun (c : Context) => { c with cprio := prio c.num c.cprio }
        admission := s.admission.map fun (r : Request) => { r with prio := prio r.ctx r.prio } }).reply h 0x07 0 []
    | _, _ => s.deny h 0x07 0x44

/-! ## XLATE_INVAL and PIN_BUDGET (R21, R46) -/

/-- Accesses of a context in a range that have not reached their ordering points, those of loads that have joined a read among
them. -/
def State.accessing (s : State) (num lo hi : Nat) : Bool :=
  let hit := fun (ctx va size : Nat) => ctx == num && decide (va < hi ∧ lo < va + size)
  (s.msgs.any fun m => match m.what with
    | .read _ _ _ ws => m.ctx == num && ws.any fun w => hit num w.va w.count
    | .dram _ _ _ ws => m.ctx == num && ws.any fun w => hit num w.va w.count
    | _ => false)
  || (s.msgs.any fun m => hit m.ctx m.va m.size && match m.what with
    | .read .. => true
    | .dram .. => true
    | .write .. => true
    | .atomic .. => true
    | .l1Atomic .. => true
    | .toL1 .. => true
    | .lookup .. => true
    | _ => false) || s.deferred.any fun d => !d.loc && hit d.ctx d.va d.size

/-- Whether a page's translation, of 64 KiB or 512 MiB, overlaps a range. -/
def pageMeets (lo hi : Nat) (g : Nat × Leaf) : Bool :=
  let k := if g.2.big then 2 ^ 29 else 2 ^ 16
  let base := g.1 * 2 ^ 16 / k * k
  decide (base < hi ∧ lo < base + k)

/-- A page of the range is pinned. -/
def State.pinnedIn (s : State) (num lo hi : Nat) : Bool :=
  s.parcels.any fun p => p.ctx == num && p.pinnedPages.any (pageMeets lo hi)

def TlbEntry.overlaps (e : TlbEntry) (lo hi : Nat) : Bool :=
  let k := if e.big then 2 ^ 29 else 2 ^ 16
  decide (e.page * k < hi ∧ lo < (e.page + 1) * k)

def WalkEntry.overlaps (e : WalkEntry) (lo hi : Nat) : Bool :=
  let k := if e.middle then 2 ^ 29 else 2 ^ 42
  decide (e.index * k < hi ∧ lo < (e.index + 1) * k)

/-- XLATE_INVAL; it completes once the accesses that use an entry of the range are over. -/
def State.xlateInval (s : State) (h : CmdHdr) (body : List Byte) : State :=
  s.command 0x08 h body fun h s =>
    let all := bit (field body 16 4) 0
    let base := field body 0 8
    let n := field body 8 8
    let lo := if all then 0 else base
    let hi := if all then 2 ^ 52 else base + n
    if (s.resident? h.ctx).isNone then s.deny h 0x08 0x44
    else if !all ∧ (base % 2 ^ 16 ≠ 0 ∨ n % 2 ^ 16 ≠ 0 ∨ 2 ^ 52 < base + n) then s.deny h 0x08 0x45
    else if s.pinnedIn h.ctx lo hi then s.deny h 0x08 0x43
    else if s.accessing h.ctx lo hi then s
    else
      { s with
        tlb := s.tlb.filter fun e => !(e.ctx == h.ctx && e.overlaps lo hi)
        walks := s.walks.filter fun e => !(e.ctx == h.ctx && e.overlaps lo hi)
        parcels := updWhere (·.ctx == h.ctx) (fun p => { p with kept := p.kept.filter fun g => !pageMeets lo hi g }) s.parcels
        }.reply h 0x08 0 []

/-- The most pinned ways of a set, those of fills in progress among them (R46). -/
def State.mostPinned (s : State) : Nat :=
  let homes := s.pinClaims.map lineHome
  homes.foldl (fun m h => max m (homes.filter (· = h)).length) 0

def State.pinBudgetCmd (s : State) (h : CmdHdr) (body : List Byte) : State :=
  s.command 0x09 h body fun h s =>
    let b := field body 0 4
    if 16 < b then s.deny h 0x09 0x47
    else if b < s.mostPinned then s.deny h 0x09 0x46
    else { s with pinBudget := b, pacDue := s.pacDue || decide (s.pinBudget < b) }.reply h 0x09 0 []

/-! ## TELEMETRY, PORT_MODE, NOC_AVOID, AM_LOAD (R48, R192, R385, R393, R396, R398) -/

/-- Errors are corrected with no other effect: the counters have risen by numbers that nothing states (log 26). -/
def State.corrected (s : State) : State :=
  { s with
    ecc := ((iota 0 16).zip s.ecc).map fun (x : Nat × Nat) => x.2 + s.freeNat [6, x.1]
    ports := ((iota 16 16).zip s.ports).map fun (x : Nat × Port) => { x.2 with fec := x.2.fec + s.freeNat [7, x.1] } }

def State.telemetry (s : State) (h : CmdHdr) (body : List Byte) : State :=
  s.command 0x0A h body fun h s =>
    match field body 0 4 with
    | 0 => { s with pinbyp := [] }.reply h 0x0A 0 ((iota 0 256).flatMap fun k => toBytes 4 (Sparse.get 0 s.pinbyp k))
    | 1 => s.reply h 0x0A 0 ((iota 0 512).flatMap fun k => toBytes 8 (Sparse.get 0 s.assists k))
    | 2 => s.corrected.reply h 0x0A 0 (s.corrected.ecc.flatMap (toBytes 8))
    | 3 => s.corrected.reply h 0x0A 0
        (s.corrected.ports.flatMap fun p => toBytes 8 p.sent ++ toBytes 8 p.received ++ toBytes 8 p.fec)
    | _ => s.deny h 0x0A 0x47

def State.portMode (s : State) (h : CmdHdr) (body : List Byte) : State :=
  s.command 0x0B h body fun h s =>
    let p := field body 0 2
    let m := field body 2 2
    let ports := s.ports.modify p fun q => { q with waybillMode := m == 1 }
    if 16 ≤ p ∨ 1 < m then s.deny h 0x0B 0x47
    else if p = h.port ∨ ports.all (·.waybillMode) then s.deny h 0x0B 0x48
    else { s with ports := ports }.reply h 0x0B 0 []

def State.nocAvoidCmd (s : State) (h : CmdHdr) (body : List Byte) : State :=
  s.command 0x0C h body fun h s =>
    let m := field body 0 2
    if m = 65535 then s.deny h 0x0C 0x47 else { s with nocAvoid := BitVec.ofNat 16 m }.reply h 0x0C 0 []

def State.amLoad (s : State) (h : CmdHdr) (body : List Byte) : State :=
  s.command 0x0D h body fun h s =>
    let n := field body 0 4
    if 64 ≤ n ∨ (s.resident? h.ctx).isNone then s.deny h 0x0D 0x47
    else (s.updCtx h.ctx fun c => { c with handlers := (c.handlers.filter (·.1 != n)) ++ [(n, body.drop 4)] }).reply h 0x0D 0 []

/-! ## Identity, attestation and life cycle (R402 to R405) -/

def bigEndian (n x : Nat) : List Byte := (toBytes n x).reverse
def ofBigEndian (l : List Byte) : Nat := ofBytes l.reverse

def Lifecycle.code : Lifecycle → Nat
  | .manufacture => 0 | .test => 1 | .production => 2 | .returned => 3 | .retired => 4

/-- The uncompressed SEC1 form of the identity key's public point (R402). -/
def identityPoint : List Byte := toBytes 1 4 ++ bigEndian 66 Config.identityX.toNat ++ bigEndian 66 Config.identityY.toNat

def State.identity (s : State) (h : CmdHdr) (body : List Byte) : State :=
  s.command 0x10 h body fun h s =>
    s.reply h 0x10 0 (identityPoint ++ toBytes 4 s.deviceId.toNat ++ toBytes 1 s.lifecycle.code
      ++ toBytes 8 Config.serial.toNat)

def State.setId (s : State) (h : CmdHdr) (body : List Byte) : State :=
  s.command 0x14 h body fun h s =>
    let v := field body 0 4
    if !s.contexts.isEmpty then s.deny h 0x14 0x48
    else if 2 ^ 21 ≤ v then s.deny h 0x14 0x47
    else { s with deviceId := BitVec.ofNat 21 v }.reply h 0x14 0 []

/-- Bytes 0 to 215 of the report; the running image is the one that the last bring-up found. -/
def State.report216 (s : State) (nonce : List Byte) : List Byte :=
  let cfg := toBytes 4 s.pinBudget ++ (s.ports.flatMap fun p => toBytes 1 p.waybillMode.toNat) ++ toBytes 2 s.nocAvoid.toNat
  toBytes 2 1 ++ toBytes 1 s.lifecycle.code ++ toBytes 1 0 ++ toBytes 4 s.deviceId.toNat ++ toBytes 8 s.boots ++ nonce
    ++ bigEndian 64 (Config.sha512 (Config.firmwareImage s.boots)).toNat ++ toBytes 4 s.fwsvn.toNat ++ toBytes 4 0
    ++ bigEndian 64 (Config.sha512 cfg).toNat

/-- ATTEST, with the identity key, which is there until the device is SCRAPPED (R402). -/
def State.attest (s : State) (h : CmdHdr) (body : List Byte) : State :=
  s.command 0x11 h body fun h s =>
    let r := s.report216 body
    if s.keyErased then s.deny h 0x11 0x4B
    else
      let sig := Config.sign s.signatures r
      { s with signatures := s.signatures + 1 }.reply h 0x11 0 (r ++ bigEndian 66 sig.1.toNat ++ bigEndian 66 sig.2.toNat)

/-- The vendor key that is fused for a state (R405). -/
def Lifecycle.key (l : Lifecycle) : Option Config.VendorKey :=
  match l with
  | .manufacture => some .manufacturing
  | .test => some .development
  | .production => some .production
  | .returned => some .development
  | .retired => none

/-- Whether a vendor's signature on some bytes is by the key of a state. -/
def Lifecycle.signed (l : Lifecycle) (bytes : List Byte) (r q : BitVec 528) : Bool :=
  l.key.any fun k => Config.verify (Config.fusedHash k) (Config.sha512 bytes) r q

/-- The state that a transition of R405 reaches. -/
def Lifecycle.next (l : Lifecycle) (target : Nat) : Option Lifecycle :=
  match l, target with
  | .manufacture, 1 => some .test
  | .test, 2 => some .production
  | .production, 3 => some .returned
  | .retired, _ => none
  | _, 4 => some .retired
  | _, _ => none

/-- Everything that a reset ends: contexts and their work, translations and caches, messages in flight. Fuses, counters since
MANUFACTURE and the state of the links stay, and GDDR 7 until its wipe. A module that is held in reset counts it once, as it is let
go. -/
def State.restart (s : State) (b : Boot) : State :=
  { State.reset with
    agenda := s.agenda, cur := s.cur, freeCtr := s.freeCtr, seq := s.seq, mem := s.mem, poison := s.poison
    lifecycle := s.lifecycle, fwsvn := s.fwsvn, boots := if b = .held then s.boots else s.boots + 1
    boot := b, signatures := s.signatures, keyErased := s.keyErased
    outbox := s.outbox, nocDown := s.nocDown, throttled := s.throttled
    ports := s.ports.map fun p => { ({} : Port) with up := p.up } }

/-- The wipe of GDDR 7 (R406): every byte zero, no poison. -/
def State.wipe (s : State) : State := { s with mem := [], poison := [] }

def State.lifecycleCmd (s : State) (h : CmdHdr) (body : List Byte) : State :=
  s.command 0x12 h body fun h s =>
    let target := field body 0 1
    let r := BitVec.ofNat 528 (ofBigEndian ((body.drop 4).take 66))
    let q := BitVec.ofNat 528 (ofBigEndian ((body.drop 70).take 66))
    if !s.contexts.isEmpty then s.deny h 0x12 0x48
    else match s.lifecycle.next target with
      | none => s.deny h 0x12 0x4B
      | some l =>
        if !s.lifecycle.signed (toBytes 8 Config.serial.toNat ++ toBytes 1 target) r q then s.deny h 0x12 0x4A
        else ({ s.reply h 0x12 0 [] with lifecycle := l, keyErased := s.keyErased || l == Lifecycle.retired }.wipe).restart (.step 1)

def State.hostReset (s : State) (h : CmdHdr) (body : List Byte) : State :=
  s.command 0x13 h body fun h s => (s.reply h 0x13 0 []).restart (.step 1)

/-- UNKNOWN_COMMAND: a code that names no command, or a body of another length. -/
def State.unknownCommand (s : State) (cmd : Nat) (h : CmdHdr) (body : List Byte) : State :=
  let cmd := cmd % 2 ^ 16
  if cmdFits cmd body.length then s else s.command cmd h body fun _ s => s

/-! ## Bring-up and power (R400, R401, R406, R407) -/

/-- POWER_GOOD. -/
def State.powerGood (s : State) : State := if s.boot = .held then s.restart (.step 1) else s

/-- The security version of a firmware image (R401). -/
def imageVersion (img : List Byte) : BitVec 32 := BitVec.ofNat 32 (field img 8 4)

/-- Whether a firmware image ends with the signature block of R235, by the key of a life-cycle state (R401). -/
def Lifecycle.accepts (l : Lifecycle) (img : List Byte) : Bool :=
  let n := img.length - 200
  let b := img.drop n
  decide (200 ≤ img.length) && field b 0 2 == 1 && field b 2 2 == 0
    && (l.key.any fun k => (b.drop 4).take 64 == bigEndian 64 (Config.fusedHash k).toNat)
    && l.signed (img.take n) (BitVec.ofNat 528 (ofBigEndian ((b.drop 68).take 66))) (BitVec.ofNat 528 (ofBigEndian ((b.drop 134).take 66)))

/-- A firmware image is accepted, or boot stops in recovery (R401). -/
def State.bootFirmware (s : State) : State :=
  let img := Config.firmwareImage s.boots
  if s.lifecycle.accepts img ∧ s.fwsvn.toNat ≤ (imageVersion img).toNat then
    { s with fwsvn := imageVersion img, boot := .step 3 }
  else { s with boot := .recovery }

/-- BRING_UP_STEP_DONE: the step in progress ends, with success or not. -/
def State.bringUpStepDone (s : State) (ok : Bool) : State :=
  match s.boot with
  | .step n =>
    if !ok then { s with boot := .recovery }
    else match n with
      | 2 => s.bootFirmware
      | 5 => { s.wipe with boot := .step 6 }
      | 6 => { s with
          boot := .step 7, nocAvoid := 0, pinBudget := 12
          ports := s.ports.map fun p => { p with waybillMode := false } }
      | 7 => { s with boot := .openFull }
      | n => { s with boot := .step (n + 1) }
  | _ => s

def State.powerThrottle (s : State) (on : Bool) : State := { s with throttled := on }

/-- The place of a unit among those that R380 lists; the junction, and the device links of each GDDR 7 controller, come last. -/
def errUnitIndex : ErrUnit → Nat
  | .admission => 0 | .parcelTable => 1 | .polderTable => 2 | .dispatcher => 3 | .launchUnit => 4 | .network => 5
  | .junction => 6 | .dramLink k => 7 + k

/-- DEVICE_ERROR to every host that has a context loaded, by the port of the first of them (R397; DESIGN CHOICE: log 123). -/
def State.deviceError (s : State) (u : ErrUnit) : State :=
  (distinct (s.contexts.map (·.host))).foldl (fun s k =>
    let port := ((s.contexts.find? (·.host == k)).map (·.port)).getD 0
    s.post ⟨port, k, 0, 0, 0x85, 0, toBytes 4 (Config.errUnit (errUnitIndex u)).toNat⟩) s

/-- JUNCTION_OVERTEMP: every context is killed with the module, which holds itself in reset. -/
def State.junctionOvertemp (s : State) : State := (s.deviceError .junction).restart .held

def State.inputVoltageFault (s : State) : State := s.restart .held

end Sys2Proof.Machine
end

