-- ==== Sys2Proof/Machine/Traps.lean ====
section
/-! DEFINITION. ASSERT and the return from a handler (R241, R242), reports (R373), pre-emption (R378), errors and containment
(R376 to R380). -/

namespace Sys2Proof.Machine

/-! ## The stop record (R376, R377) -/

def StopRecord.bytes (r : StopRecord) : List Byte :=
  let n : Named := r.named.getD ⟨0, 0, 0, 0, 0, 0, 0, 0, 0, 0⟩
  let lane := if r.named.isSome then n.tid % 32 else 0
  toBytes 1 r.kind ++ toBytes 1 r.cause ++ toBytes 2 (r.nested.toNat + r.named.isSome.toNat * 2)
    ++ toBytes 4 n.tid ++ toBytes 8 n.gid ++ toBytes 4 n.x ++ toBytes 2 n.y ++ toBytes 2 n.z ++ toBytes 8 n.pc
    ++ toBytes 8 r.info ++ toBytes 8 n.cycles ++ toBytes 1 lane ++ toBytes 1 n.die ++ toBytes 1 n.cluster ++ toBytes 1 n.core
    ++ toBytes 12 0

/-- The device writes a stop record at ASSERTREC; where the write faults, the notice alone carries it. -/
def State.writeRecord (s : State) (c : Context) (r : StopRecord) : State :=
  match s.writeCells (.die 0) c.num c.assertRec.toNat r.bytes .write with
  | .ok cells => s.homeWrite cells
  | .error _ => s

/-! ## ASSERT (R241, R375) -/

/-- The latest notice of a context's stop, among messages with the newest first, names another thread. -/
def renotice (num : Nat) (body : List Byte) (os : List Outgoing) : List Outgoing :=
  match os with
  | [] => []
  | o :: rest => if o.ctx = num ∧ o.code = 0x82 then { o with body } :: rest else o :: renotice num body rest

/-- Another wave of a context asserts in the cycle in which the context has stopped: the record names the lower core's (R375). -/
def State.stopLower (s : State) (c : Context) (core : Nat) (r : StopRecord) : State :=
  if s.tooLate [1, c.num] core then
    let s := (s.writeRecord c r).noteAct (core / 128) [1, c.num] core
    let s := { s with marks := s.marks.filter fun m => !(m.key == [1, c.num] && m.rank != core) }
    let again := fun (os : List Outgoing) => (renotice c.num r.bytes os.reverse).reverse
    if s.unsent.any fun o => o.ctx = c.num ∧ o.code = 0x82 then { s with unsent := again s.unsent }
    else { s with outbox := again s.outbox }
  else s

/-- A context stops; a pre-emption in progress ends with BUSY (R378). -/
def State.stopContext (s : State) (num core : Nat) (r : StopRecord) : State :=
  match s.ctx? num with
  | none => s
  | some c =>
    if c.status = .stopped then s.stopLower c core r
    else
      let s := ((s.writeRecord c r).notice num 0x82 r.bytes).noteAct (core / 128) [1, num] core
      let s := match c.status with
        | .preempting _ h => s.deny h 0x06 0x48
        | _ => s
      s.updCtx num fun c => { c with status := .stopped }

/-- The participants whose condition is false. -/
def Issue.failing (x : Issue) : List (Nat × Thread) := x.parts.filter fun lt => x.a lt 32 == 0

def assertBody (x : Issue) (s : State) : State × Out :=
  match x.failing with
  | [] => (s, .go)
  | lt :: _ =>
    (s.stopContext x.grid.ctx x.team.pkCore ⟨1, Cause.assert, false, some (s.named x.team lt.2.tid x.pc.toNat), x.b lt 64⟩, .go)

def execAssert (f : Fields) (s : State) := runWave 0x0C f assertBody s

/-! ## TRAPRET (R242) -/

/-- CAUSE, OWN and REPORT of TRAPCAUSE (R371). -/
def Thread.cause (th : Thread) : Nat := th.trapCause.toNat % 256
def Thread.own (th : Thread) : Bool := bit th.trapCause.toNat 8
def Thread.inReport (th : Thread) : Bool := bit th.trapCause.toNat 9

def recoverable (c : Nat) : Bool :=
  [Cause.embargo, Cause.xlate, Cause.courierFault, Cause.matrixFault, Cause.deadletterFault, Cause.waybillCheck,
   Cause.fabricNack, Cause.trapInsn].contains c

/-- How a handler ends. -/
inductive Ret where
  | resume | retry | skip
  deriving DecidableEq, Repr

/-- A report of a join decrement is settled by each of the returns, whatever its cause (R340). -/
def Context.handlingJoin (c : Context) : Bool := c.handling.any fun r => match r.source with
  | .join _ => true
  | _ => false

def trapretErr (k : Ret) (x : Issue) (lt : Nat × Thread) : Option Nat :=
  if !lt.2.handler then some 0
  else if k ≠ .skip ∧ !recoverable lt.2.cause ∧ !(lt.2.inReport && x.ctx.handlingJoin) then some lt.2.cause
  else none

/-- Whether a trap of a command's kind is about a command that has faulted while it ran, by its TRAPINFO. -/
def State.aboutCourier (s : State) (uid : Nat) (th : Thread) : Bool :=
  (s.faultedCouriers uid th.tid).any fun k => match k.state with
    | .faulted _ i => i % 2 ^ 64 == th.trapInfo.toNat
    | _ => false

/-- What a handler's return settles of the thread's own failures (R97, R323, R343): of a thread that entered with OWN = 0, nothing
(DESIGN CHOICE: log 119; R242 speaks of the thread's faulted commands). -/
def State.settleFailures (s : State) (k : Ret) (uid : Nat) (th : Thread) : State :=
  if !th.own then s
  else if th.cause = Cause.courierFault then
    let ks := s.faultedCouriers uid th.tid
    if !s.aboutCourier uid th then s
    else if k = .retry then ks.foldl State.retryCourier s else ks.foldl State.skipCourier s
  else if th.cause = Cause.matrixFault then
    match s.mxFault uid with
    | some (m, i) => if k ≠ .retry ∧ m.tid = th.tid ∧ i % 2 ^ 64 = th.trapInfo.toNat then s.skipMatrix uid else s
    | none => s
  else if th.cause = Cause.fabricNack ∨ th.cause = Cause.reedAbort then
    let rs := s.refusedBy uid th.tid th.cause
    if k = .retry then rs.foldl State.retryRemote s else rs.foldl State.skipRemote s
  else s

/-- What it settles of a report (R97, R323, R340, R343, R363, R364). -/
def State.settleReport (s : State) (k : Ret) (ctx : Nat) (r : Report) : State :=
  match r.source with
  | .courier id => match s.couriers.find? (·.id == id) with
    | some c => if k = .retry then s.retryCourier c else s.skipCourier c
    | none => s
  | .matrix uid => if k = .retry then s.restartMatrix uid else s.skipMatrix uid
  | .remote id => match s.remotes.find? (·.id == id) with
    | some o =>
      let rs := s.refusedBy o.uid o.tid r.cause
      if k = .retry then rs.foldl State.retryRemote s else rs.foldl State.skipRemote s
    | none => s
  | .deadLetterStage cluster =>
    let mine := fun (x : Staged) => x.cluster == cluster && x.ctx == ctx
    if k = .retry then { s with staging := updWhere mine (fun x => { x with retry := true }) s.staging }
    else { s with staging := s.staging.filter fun x => !mine x }
  | .deadLetterDrain =>
    let s := s.updCtx ctx fun c => { c with drainStopped := false }
    if k = .retry then s else s.takeNext ctx
  | .join gid => if k = .retry then s.retryJoin ctx gid (r.info % 2 ^ 52) else s

/-- Where a thread that skips continues: past the trapped instruction; at a WAITB or MWAIT that took the fault of its own
command, whose wait is then applied (R97, R323; log 27). -/
def State.skipTarget (s : State) (t : Team) (ctx : Nat) (th : Thread) : DWord :=
  match s.wordAt ctx t.pkCore th.trapPc.toNat with
  | none => th.trapPc + 4
  | some w =>
    let op := bits w 3 8
    if th.own ∧ ((th.cause = Cause.courierFault ∧ op = 0xAD) ∨ (th.cause = Cause.matrixFault ∧ op = 0xC7)) then th.trapPc
    else th.trapPc + BitVec.ofNat 64 (wordLength w)

/-- Where a thread continues. -/
def State.retTarget (s : State) (k : Ret) (t : Team) (ctx : Nat) (th : Thread) : DWord :=
  let resume := BitVec.ofNat 64 (th.resumePc.toNat / 4 * 4)
  if th.inReport then resume
  else match k with
    | .resume => resume
    | .retry => th.trapPc
    | .skip => s.skipTarget t ctx th

/-- One participant's return: its failures or its report are settled, and it leaves trap priority. -/
def Issue.trapretOne (x : Issue) (k : Ret) (s : State) (lt : Nat × Thread) : State :=
  let s := if lt.2.inReport then
      match (s.ctx? x.grid.ctx).bind (·.handling) with
      | some r => (s.settleReport k x.grid.ctx r).updCtx x.grid.ctx fun c => { c with handling := none }
      | none => s
    else s.settleFailures k x.team.uid lt.2
  s.updThread x.team.uid lt.2.tid fun th => { th with handler := false }

def trapretBody (k : Ret) (x : Issue) (s : State) : State × Out :=
  (x.parts.foldl (x.trapretOne k) s, .branch (x.parts.map fun lt => (lt.2.tid, x.s.retTarget k x.team x.grid.ctx lt.2)))

def execTrapretResume (f : Fields) (s : State) :=
  runWave 0x0B f (unlessRaised Cause.privilege (trapretErr .resume) (trapretBody .resume)) s
def execTrapretRetry (f : Fields) (s : State) :=
  runWave 0x0B f (unlessRaised Cause.privilege (trapretErr .retry) (trapretBody .retry)) s
def execTrapretSkip (f : Fields) (s : State) :=
  runWave 0x0B f (unlessRaised Cause.privilege (trapretErr .skip) (trapretBody .skip)) s

/-! ## REPORT_DELIVERY (R373) -/

/-- An abandoned wait leaves nothing behind that its execution again would count twice. A STGET that has retired its iteration and
waits for the next holds none: ITER says so (R174, R203). -/
def State.abandonWait (s : State) (uid : Nat) (th : Thread) : State :=
  let upd := fun (f : Thread → Thread) => s.updThread uid th.tid f
  match th.wait? with
  | some (.courier id) => { s with couriers := s.couriers.filter fun k => !(k.id == id && k.state == .held) }
  | some (.kventer id ..) => { s with couriers := s.couriers.filter fun k => !(k.id == id && k.state == .held) }
  | some (.matrix cmds ..) => { s with matrix := s.matrix.filter fun k => !(cmds.contains k.id && k.state == .held) }
  | some (.penter _) => upd fun th => { th with joined := false }
  | some (.stloop ..) => upd fun th => { th with ljoined := th.ljoined - 1 }
  | some (.stget _) => if th.held.isNone then s.dropIteration uid th.tid else s
  | some (.grow ..) => s.updTeam uid fun t => { t with grows := t.grows.filter (· ≠ th.tid) }
  | _ => s

/-- A thread leaves its wave, its mere, its filing or its wait. -/
def State.detach (s : State) (uid tid : Nat) : State :=
  let s := (s.waves.filter fun w => w.uid == uid && w.tids.contains tid).foldl (fun s w => s.leaveWave w.wid [tid]) s
  let meres := s.meres.map fun m => if m.uid = uid then { m with threads := m.threads.filter fun x => x.1 != tid } else m
  ({ s with meres := meres.filter fun m => m.threads != [] }).updThread uid tid fun th =>
    { th with blocked := none, filing := none, seat := none, released := false }

/-- Whether thread 0 of a fault handler team stands at an instruction boundary, or waits in an instruction. -/
def State.deliverable (s : State) (t : Team) (th : Thread) : Bool :=
  !th.handler && t.status == .resident && (t.unbound [th.tid]).isEmpty
    && (s.waves.all fun w => !(w.uid == t.uid && w.tids.contains th.tid) || w.park.isNone)
    && match th.wait? with
      | some .preenter => false
      | some (.preenterDone _) => false
      | some .results => false
      | _ => true

/-- The oldest report is delivered to thread 0 of the fault handler team as a trap. -/
def State.reportDelivery (s : State) (num : Nat) : State :=
  match s.ctx? num with
  | none => s
  | some c =>
    match c.reports, s.teams.find? fun t => c.fhGid == some t.gid && t.index == 0 with
    | r :: rest, some t =>
      match t.thread? 0 with
      | none => s
      | some th =>
        if c.dying || c.status == .stopped || c.handling.isSome || !s.deliverable t th then s
        else if c.trapEntry = 0 then s.kill num ⟨2, r.cause, false, none, r.info⟩
        else
          let s := ((s.abandonWait t.uid th).detach t.uid 0).updTeam t.uid fun t => t.flush s.lastResult 0
          let enter := fun (th : Thread) => { th with
            trapPc := BitVec.ofNat 64 r.pc, trapCause := trapCauseWord r.cause true true, trapInfo := BitVec.ofNat 64 r.info
            resumePc := th.pc, hcount := 0, trapMask := 1, handler := true, pc := c.trapEntry }
          ((s.updThread t.uid 0 enter).addWave t.uid [(0, 0)]).updCtx num fun c =>
            { c with reports := rest, handling := some r }
    | _, _ => s

/-- A context whose fault handler team can receive no more kills it with the oldest report's cause. -/
def State.lostReports (s : State) (cs : List Context) : State :=
  match cs with
  | [] => s
  | c :: rest =>
    State.lostReports (match c.reports with
      | [] => s
      | r :: _ =>
        let alive := s.teams.any fun t => c.fhGid == some t.gid && t.index == 0 && (!t.started || t.threads.any (·.tid == 0))
        if alive then s else s.kill c.num ⟨2, r.cause, false, none, r.info⟩) rest

/-! ## HANDLER_OVERRUN (R372), pre-emption (R378) -/

/-- Whether a thread's next instruction overruns its handler. -/
def Thread.overrun (th : Thread) : Bool := th.handler && decide (2 ^ 20 ≤ th.hcount)

def State.handlerOverrun (s : State) (uid tid : Nat) : State :=
  match s.team? uid with
  | none => s
  | some t => match t.thread? tid with
    | none => s
    | some th =>
      if th.overrun then
        s.kill (s.ctxOf t) ⟨2, Cause.handlerOverrun, false, some (s.named t tid th.pc.toNat), th.trapCause.toNat⟩
      else s

/-- The teams of a context on cores, but for its fault handler team. -/
def State.onCores (s : State) (num : Nat) : Nat :=
  (s.teams.filter fun t => s.ctxOf t == num && t.status == .resident && !s.isHandlerTeam t).length

/-- PREEMPT_RESET: the deadline has passed, and teams are on cores. -/
def State.preemptReset (s : State) (num : Nat) : State :=
  match (s.ctx? num).map (·.status) with
  | some (CtxStatus.preempting deadline _) =>
    let n := s.onCores num
    if 0 < n ∧ deadline < s.now 0 then s.kill num ⟨2, Cause.preemptReset, false, none, n⟩ else s
  | _ => s

/-- The deadlines that the cycles which have passed leave behind (R378, R382). -/
def State.preemptResets (s : State) : State := (s.contexts.map (·.num)).foldl State.preemptReset s

/-- PREEMPT_COMPLETE: no team of the context is on a core but its fault handler team. -/
def State.preemptComplete (s : State) (num : Nat) : State :=
  match (s.ctx? num).map (·.status) with
  | some (CtxStatus.preempting _ h) =>
    if s.onCores num = 0 then
      ((s.updCtx num fun c => { c with status := .preempted }).notice num 0x84 []).reply h 0x06 0 []
    else s
  | _ => s

/-! ## UNCORRECTABLE (R380) -/

/-- The kill of the context of a team whose state is lost. -/
def State.killUnit (s : State) (uid unit offset : Nat) : State :=
  match s.team? uid with
  | none => s
  | some t => s.kill (s.ctxOf t) ⟨2, Cause.uncorrectable, false, none, unit * 2 ^ 60 + offset % 2 ^ 52⟩

/-- A held copy is read again from the home slice, with the cluster's writes on their way. -/
def State.reread (s : State) (cluster line : Nat) : State :=
  let data := overlayData 1024 (line * 128) (BitVec.ofNat 1024 (Memory.num s.mem (line * 128) 128)) (s.unacked cluster line)
  let fix := fun (c : L1Copy) => { c with data := data, valid := s.soundSectors line }
  let kept := s.l1.filter fun c => !(c.cluster == cluster && c.line == line) || c.held
  { s with l1 := updWhere (fun c => c.cluster == cluster && c.line == line) fix kept }

/-- A clean line of DRAM kind is dropped. -/
def State.dropClean (s : State) (line : Nat) : State :=
  if 2 ^ 41 ≤ line ∨ s.pinnedLines.contains line then s
  else { s with l2 := s.l2.filter fun l => l.line != line || l.dirty != 0 }

def State.uncorrectable (s : State) (p : ErrPlace) : State :=
  match p with
  | .registerFile uid => s.killUnit uid 1 0
  | .localMem uid offset => s.killUnit uid 2 offset
  | .engineState uid => s.killUnit uid 3 0
  | .l1Copy cluster line => s.reread cluster line
  | .tlbEntry u ctx page => { s with tlb := s.tlb.filter fun e => !(e.unit == u && e.ctx == ctx && e.page == page) }
  | .cleanLine line => s.dropClean line
  | .sector addr => if s.poison.contains (addr / 32) then s else { s with poison := s.poison ++ [addr / 32] }
  | .device u =>
    (s.contexts.map (·.num)).foldl (fun s n => s.kill n ⟨2, Cause.uncorrectable, false, none, 0⟩) (s.deviceError u)

/-! ## CONTAINMENT_COMPLETE (R136, R379) -/

/-- Messages of a context that are not the protocol's own. -/
def Msg.ofCtx (m : Msg) (num : Nat) : Bool :=
  m.ctx == num && match m.what with
    | .grantReq _ => false
    | .grant _ _ => false
    | .recall => false
    | .release => false
    | _ => true

/-- A store of a context that an L1 slice has accepted has not performed at its home slice. Its cluster may have read it, so it is
not dropped (R136). -/
def State.storesLeft (s : State) (num : Nat) : Bool :=
  s.msgs.any fun m => m.ctx == num && match m.what with
    | .write _ early => early
    | _ => false

/-- CONTAINMENT_COMPLETE: every store of the context that was accepted has performed, and what else of it is on its way is dropped.
Until then its requests arrive and are performed as any others are (log 122). -/
def State.containmentComplete (s : State) (num : Nat) : State :=
  match s.ctx? num with
  | none => s
  | some c =>
    match c.status with
    | .dying to? =>
      if s.storesLeft num then s
      else
      let s := { s with msgs := s.msgs.filter fun m => !m.ofCtx num }
      let r : StopRecord := c.stopRec.getD ⟨2, 0, false, none, 0⟩
      let s := ((s.writeRecord c r).notice num 0x83 r.bytes).depart num
      match to? with
      | some h => s.reply h 0x05 0 []
      | none => s
    | _ => s

end Sys2Proof.Machine
end

