-- ==== Sys2Proof/Machine/Events.lean ====
section
/-! DEFINITION. The steps of the agents that are no thread: one meaning for each row of the opcode table that is no instruction
of the ISA. A step that cannot happen in a state leaves it as it is (log 1). -/

namespace Sys2Proof.Machine

/-- A step of an agent: it always ends in a next state. -/
abbrev Step := Host.Outcome State Fault Refusal

/-! ## Cores and the memory system (R17, R36 to R38, R44, R49 to R51, R118, R206) -/

/-- RESULT_WRITEBACK: a thread's n-th outstanding result is written, if it is bound (R207). -/
def State.writeback (s : State) (uid tid n : Nat) : State :=
  match (s.thread? uid tid).bind fun th => th.pend[n]? with
  | none => s
  | some p =>
    if p.parts ≠ 0 then s
    else s.updTeam uid fun t =>
      (t.updThread tid fun th => { th with pend := th.pend.filter fun q => q.id != p.id }).applyWrites tid p.writes

def execResultWriteback (uid tid n : Nat) (s : State) : Step := .next (s.writeback uid tid n)

/-- Bytes of a sector as a waiter sees them (R37). -/
def Waiter.bytes (w : Waiter) (line sector : Nat) (data : BitVec 256) : List Byte :=
  let d := overlayData 256 (line * 128 + 32 * sector) data w.overlay
  toBytes w.count (d.toNat / 256 ^ (w.addr % 32))

/-- A sector goes into the cluster's copy of its line; a held copy is newer (R35, R38, R50). -/
def State.allocate (s : State) (m : Msg) (sector : Nat) (data : BitVec 256) (ov : List Host.Cell) : State :=
  let base := m.line * 128 + 32 * sector
  let d := overlayData 256 base data ov
  let put := fun (c : L1Copy) => { c with
    data := overlayData 1024 (m.line * 128) c.data (cellsAt base (toBytes 32 d.toNat)), valid := c.valid ||| BitVec.ofNat 4 (2 ^ sector) }
  match s.copy? m.cluster m.line with
  | some c =>
    if c.held then s else { s with l1 := updWhere (fun c => c.cluster == m.cluster && c.line == m.line) put s.l1 }
  | none =>
    let r := s.l1Way m.cluster m.line
    { r.1 with l1 := r.1.l1 ++ [put ⟨m.cluster, m.line, r.2, 0, 0, false⟩] }

/-- A message is the next of its direction, and its packet can cross (log 13, log 56). -/
def State.comes (s : State) (m : Msg) : Bool := s.first m && s.crosses m

/-- L1_FILL_ARRIVAL. -/
def State.fillArrival (s : State) (id : Nat) : State :=
  match s.msg? id with
  | none => s
  | some m => match m.what with
    | .fill sector data alloc ov ws =>
      if !s.comes m then s
      else
        let s := s.dropMsg id
        let s := ws.foldl (fun s w => s.bind w.uid w.tid w.pend w.first (w.bytes m.line sector data)) s
        if alloc then s.allocate m sector data ov else s
    | _ => s

def execL1FillArrival (id : Nat) (s : State) : Step := .next (s.fillArrival id)

/-- A request of a kind is the next to arrive at its home slice. -/
def State.arriveIf (s : State) (id : Nat) (kind : MsgKind → Bool) : State :=
  match s.msg? id with
  | some m => if kind m.what && m.arrived == 0 && s.comes m then s.arrive m else s
  | none => s

def MsgKind.isWrite : MsgKind → Bool
  | .write .. => true
  | _ => false
def MsgKind.isRead : MsgKind → Bool
  | .read .. => true
  | _ => false
def MsgKind.isAtomic : MsgKind → Bool
  | .atomic .. => true
  | _ => false
def MsgKind.isGrantReq : MsgKind → Bool
  | .grantReq .. => true
  | _ => false

def execHomeSliceWriteArrival (id : Nat) (s : State) : Step := .next (s.arriveIf id MsgKind.isWrite)
def execHomeSliceReadArrival (id : Nat) (s : State) : Step := .next (s.arriveIf id MsgKind.isRead)
def execHomeSliceAtomicArrival (id : Nat) (s : State) : Step := .next (s.arriveIf id MsgKind.isAtomic)
def execGrantRequest (id : Nat) (s : State) : Step := .next (s.arriveIf id MsgKind.isGrantReq)

/-- GDDR7_READ_RETURN: the sector is allocated, unless a bypass serves the read, and the read performs (R44, R47). -/
def State.dramReturn (s : State) (id : Nat) : State :=
  match s.msg? id with
  | none => s
  | some m => match m.what with
    | .dram sector alloc ov ws =>
      if !s.comes m then s
      else
        (s.useL2 m.line (BitVec.ofNat 4 (2 ^ sector)) 0).performRead m sector alloc ov ws
    | _ => s

def execGddr7ReadReturn (id : Nat) (s : State) : Step := .next (s.dramReturn id)

/-- STORE_ACK: the answer to a store or atomic; a refusal is kept for the wave that waits for it (R14, R276). -/
def State.storeAck (s : State) (id : Nat) : State :=
  match s.msg? id with
  | none => s
  | some m => match m.what with
    | .ack _ _ pend value refused =>
      if !s.comes m then s
      else
        let s := s.dropMsg id
        match refused, pend with
        | some a, p =>
          let acc := if value = 0 then Access.read else if value = 1 then .write else .atomic
          let s := match p with
            | some p => s.refusePart m.uid m.tid p
            | none => s
          s.noteRefusal m.uid m.tid (xinfo 7 acc 2 a)
        | none, some p => s.bind m.uid m.tid p 0 (toBytes 16 value)
        | none, none => s
    | _ => s

def execStoreAck (id : Nat) (s : State) : Step := .next (s.storeAck id)

/-- RECALL reaches the holding cluster; a release notice that has left answers it (R52). -/
def State.recallArrival (s : State) (id : Nat) : State :=
  match s.msg? id with
  | some m =>
    if m.what == .recall && s.comes m then
      (if s.holds m.cluster m.line then (s.dropMsg id).giveUp m.cluster m.line else s.dropMsg id)
    else s
  | none => s

def execRecall (id : Nat) (s : State) : Step := .next (s.recallArrival id)

/-- RELEASE_NOTICE reaches the home slice. -/
def State.releaseArrival (s : State) (id : Nat) : State :=
  match s.msg? id with
  | some m => if m.what == .release && s.comes m then s.released m else s
  | none => s

def execReleaseNotice (id : Nat) (s : State) : Step := .next (s.releaseArrival id)

/-- GRANT brings the line to the cluster. -/
def State.grantArrival (s : State) (id : Nat) : State :=
  match s.msg? id with
  | some m => match m.what with
    | .grant d ov => if s.comes m then s.takeGrant m d ov else s
    | _ => s
  | none => s

def execGrant (id : Nat) (s : State) : Step := .next (s.grantArrival id)

/-- WALK_COMPLETE: a die's TLB takes the translation of a page of 64 KiB. -/
def State.walkComplete (s : State) (die ctx page : Nat) : State :=
  if 4 ≤ die then s
  else match s.xlate (.die die) ctx (page * 2 ^ 16) with
    | .ok l => s.fill (.die die) ctx (page * 2 ^ 16) l
    | .error _ => s

def execWalkComplete (die ctx page : Nat) (s : State) : Step := .next (s.walkComplete die ctx page)

/-! ## Replacement by the device (R15, R40) -/

/-- A TLB replaces an entry; a die's keeps those that a parcel pins (R18). -/
def State.dropTlb (s : State) (u : TlbUnit) (ctx page : Nat) : State :=
  let pinned := fun (e : TlbEntry) => u == .die (tlbDie u) && s.parcels.any fun p =>
    p.ctx == ctx && p.pinnedPages.any fun g => g.2.big == e.big && pageOf e.big (g.1 * 2 ^ 16) == e.page
  { s with tlb := s.tlb.filter fun e => !(e.unit == u && e.ctx == ctx && e.page == page) || pinned e }

/-- A walk cache replaces a pointer. -/
def State.dropWalk (s : State) (die ctx : Nat) (middle : Bool) (index : Nat) : State :=
  { s with walks := s.walks.filter fun e => !(e.die == die && e.ctx == ctx && e.middle == middle && e.index == index) }

def State.dropIBlock (s : State) (core addr : Nat) : State :=
  { s with icache := s.icache.filter fun b => !(b.core == core && b.addr == addr) }

/-! ## Grouping, barriers and tasks (R162, R168, R171, R240) -/

def State.mereageRelease (s : State) (core uid pc : Nat) : State :=
  match s.meres.find? fun m => m.core == core && m.uid == uid && m.pc.toNat == pc && s.mereDue m with
  | some m => s.releaseMere m
  | none => s

def execMereageRelease (core uid pc : Nat) (s : State) : Step := .next (s.mereageRelease core uid pc)

/-- PAUSE_EXPIRE: the threads that paused together, for the same count, go on together (R159, R240). -/
def State.pauseExpire (s : State) (uid tid : Nat) : State :=
  match s.team? uid with
  | none => s
  | some t => match (t.thread? tid).bind (·.blocked) with
    | some b => match b.wait with
      | .pause stop =>
        if t.status = .resident ∧ stop ≤ s.now t.die then
          let with? := fun (th : Thread) => th.blocked.any fun c => c.wait == b.wait && c.since == b.since && (c.seat.map fun g => (g.wid, g.moment)) == (b.seat.map fun g => (g.wid, g.moment))
          ((t.threads.filter fun th => with? th || th.tid == tid).map (·.tid)).foldl (fun s i => s.wake uid i) s
        else s
      | _ => s
    | none => s

def execPauseExpire (uid tid : Nat) (s : State) : Step := .next (s.pauseExpire uid tid)
def execBarrierUnreachable (uid : Nat) (s : State) : Step := .next (s.barrierUnreachable uid)
def execTaskGather (cluster : Nat) (s : State) : Step := .next (s.gather cluster)

/-! ## Parcels, polders and engines -/

def execFillComplete (parcel : Nat) (s : State) : Step := .next (s.fillComplete parcel)
def execEvictionComplete (parcel : Nat) (s : State) : Step := .next (s.evictionComplete parcel)
def execLeaseExpiry (polder : Nat) (s : State) : Step := .next (s.leaseExpiry polder)
def execCourierCommandStart (core : Nat) (s : State) : Step := .next (s.courierStart core)
def execSlotBytesLanded (cmd bytes : Nat) (s : State) : Step := .next (s.slotLanded cmd bytes)
def execCourierCommandComplete (cmd : Nat) (s : State) : Step := .next (s.courierComplete cmd)
def execCourierCommandFault (cmd : Nat) (s : State) : Step := .next (s.courierFaults cmd)
def execMatrixCommandStart (core : Nat) (s : State) : Step := .next (s.matrixStart core)
def execMatrixCommandComplete (core : Nat) (s : State) : Step := .next (s.matrixComplete core)
def execMatrixCommandFault (core : Nat) (s : State) : Step := .next (s.matrixFault core)
def execAssistComplete (core : Nat) (s : State) : Step := .next (s.assistComplete core)

/-! ## Scheduling -/

def execTeamDispatch (die : Nat) (s : State) : Step := .next (s.teamDispatch die)
def execSwapOut (die : Nat) (s : State) : Step := .next (s.swapOut die)
def execSwapIn (die : Nat) (s : State) : Step := .next (s.swapIn die)
def execTeamMigration (src dst : Nat) (s : State) : Step := .next (s.migrate src dst)
/-- LAUNCH_ACCEPT: the record's packet crosses from its cluster to the launch unit (R383). -/
def execLaunchAccept (cluster : Nat) (s : State) : Step :=
  .next (if s.opens (.cluster cluster) .launchUnit then s.launchAccept cluster else s)
def execConstantCopy (gid : Nat) (s : State) : Step := .next (s.constantCopy gid)
def execDlrDrain (ctx : Nat) (s : State) : Step := .next (s.dlrDrain ctx)
def execStagingRetry (cluster ctx : Nat) (s : State) : Step := .next (s.stagingRetry cluster ctx)
def execGridComplete (gid : Nat) (s : State) : Step := .next (s.gridComplete gid)

/-! ## Traps, pre-emption and containment -/

def execReportDelivery (ctx : Nat) (s : State) : Step := .next (s.reportDelivery ctx)
def execHandlerOverrun (uid tid : Nat) (s : State) : Step := .next (s.handlerOverrun uid tid)
def execPreemptReset (ctx : Nat) (s : State) : Step := .next (s.preemptReset ctx)
def execPreemptComplete (ctx : Nat) (s : State) : Step := .next (s.preemptComplete ctx)
def execUncorrectable (p : ErrPlace) (s : State) : Step := .next (s.uncorrectable p)
def execContainmentComplete (ctx : Nat) (s : State) : Step := .next (s.containmentComplete ctx)

/-! ## The fabric -/

def execRemoteAck (id : Nat) (s : State) : Step := .next (s.remoteAck id)
def execFabricNack (id reason : Nat) (s : State) : Step := .next (s.fabricNack id reason)
def execRemoteStoreArrival (via : Via) (va : Nat) (data : List Byte) (s : State) : Step := .next (s.remoteWrite via via.ctx va data)
def execWbsendArrival (via : Via) (va : Nat) (data : List Byte) (s : State) : Step := .next (s.remoteWrite via via.ctx va data)
def execRsigArrival (via : Via) (va addend : Nat) (s : State) : Step := .next (s.rsigArrival via via.ctx va addend)
def execAmsgArrival (source : AmsgFrom) (va h : Nat) (payload : List Byte) (s : State) : Step :=
  .next (s.amsgArrival source va h payload)
def execPacketForward (switch port : Nat) (s : State) : Step := .next (s.packetForward switch port)
def execPacketAgeTick (id : Nat) (s : State) : Step := .next (s.packetAgeTick id)
def execLinkFailure (l : Link) (s : State) : Step := .next (s.linkFailure l)
def execLinkUp (l : Link) (s : State) : Step := .next (s.linkUp l)

/-! ## The host, power and bring-up -/

def execHostUeWrite (h : CmdHdr) (va : Nat) (data : List Byte) (s : State) : Step := .next (s.ueWrite h va data)
def execHostUeRead (h : CmdHdr) (va len : Nat) (s : State) : Step := .next (s.ueRead h va len)
def execHostLaunch (h : CmdHdr) (body : List Byte) (s : State) : Step := .next (s.hostLaunch h body)
def execContextLoad (h : CmdHdr) (body : List Byte) (s : State) : Step := .next (s.contextLoad h body)
def execContextUnload (h : CmdHdr) (body : List Byte) (s : State) : Step := .next (s.contextUnload h body)
def execContextResume (h : CmdHdr) (body : List Byte) (s : State) : Step := .next (s.contextResume h body)
def execContextKill (h : CmdHdr) (body : List Byte) (s : State) : Step := .next (s.contextKill h body)
def execPreempt (h : CmdHdr) (body : List Byte) (s : State) : Step := .next (s.preempt h body)
def execFlip (h : CmdHdr) (body : List Byte) (s : State) : Step := .next (s.flip h body)
def execXlateInval (h : CmdHdr) (body : List Byte) (s : State) : Step := .next (s.xlateInval h body)
def execPinBudget (h : CmdHdr) (body : List Byte) (s : State) : Step := .next (s.pinBudgetCmd h body)
def execTelemetry (h : CmdHdr) (body : List Byte) (s : State) : Step := .next (s.telemetry h body)
def execPortMode (h : CmdHdr) (body : List Byte) (s : State) : Step := .next (s.portMode h body)
def execNocAvoid (h : CmdHdr) (body : List Byte) (s : State) : Step := .next (s.nocAvoidCmd h body)
def execAmLoad (h : CmdHdr) (body : List Byte) (s : State) : Step := .next (s.amLoad h body)
def execIdentity (h : CmdHdr) (body : List Byte) (s : State) : Step := .next (s.identity h body)
def execSetId (h : CmdHdr) (body : List Byte) (s : State) : Step := .next (s.setId h body)
def execAttest (h : CmdHdr) (body : List Byte) (s : State) : Step := .next (s.attest h body)
def execLifecycle (h : CmdHdr) (body : List Byte) (s : State) : Step := .next (s.lifecycleCmd h body)
def execReset (h : CmdHdr) (body : List Byte) (s : State) : Step := .next (s.hostReset h body)
def execUnknownCommand (cmd : Nat) (h : CmdHdr) (body : List Byte) (s : State) : Step := .next (s.unknownCommand cmd h body)
def execPowerGood (s : State) : Step := .next s.powerGood
def execBringUpStepDone (ok : Bool) (s : State) : Step := .next (s.bringUpStepDone ok)
def execPowerThrottle (on : Bool) (s : State) : Step := .next (s.powerThrottle on)
def execJunctionOvertemp (s : State) : Step := .next s.junctionOvertemp
def execInputVoltageFault (s : State) : Step := .next s.inputVoltageFault

end Sys2Proof.Machine
end

