-- ==== Sys2Proof/Machine/Settle.lean ====
section
/-! DEFINITION. What comes about at the end of a step, without a step of its own: waits that are over, deferred stores whose
release has taken effect, parked waves, held commands, teams that end (and the numbered rules of each wait). One pass over the machine; what it makes possible in turn comes about at the end of the next step. -/

namespace Sys2Proof.Machine

/-! ## Waiting threads -/

/-- A waiting thread: its wait ends if what it waits for has come about. -/
def State.settleWait (s : State) (t : Team) (th : Thread) (b : Blocked) : State :=
  match b.wait with
  | .release sc =>
    if s.relOk .normal sc t th b.since then (s.updThread t.uid th.tid fun th => { th with released := true }).wake t.uid th.tid
    else s
  | .stloop n w hw => s.settleStloop t th n w hw
  | .stget d => s.settleStget t.uid th.tid d
  | .waitl n => if t.passed th n then s.wake t.uid th.tid else s
  | .kvcommit => s.settleKv t.uid th
  | .seal d => s.settleSeal t.uid th d
  | .slotres h n d => s.settleSlot t.uid th h (.res n) d
  | .slottake h d => s.settleSlot t.uid th h .take d
  | .matrix cmds n d => s.settleMatrixWait t.uid th cmds n d
  | .join va => s.settleJoin t th va
  | .post r fault d => s.settlePost t th r fault d
  | .results => s.wake t.uid th.tid
  | .pause _ | .reconv | .barrier .. | .arrive .. | .stage .. | .penter _ | .preenter | .penterDone .. | .penterTrap ..
  | .preenterDone _ | .courier _ | .kventer .. | .idle | .grow .. | .event .. | .waitb .. | .mwait .. => s

/-- The tests at the end of a cycle: an EVWAIT's, after the readiness evaluation (R332); and those of WAITB and MWAIT, after the cycle's
completions and faults (R137, R306). -/
def State.closeWait (s : State) (t : Team) (th : Thread) (b : Blocked) : State :=
  match b.wait with
  | .event w m any d => s.settleEvent t th w m any d
  | .waitb n _ d => s.settleWaitb t th n d
  | .mwait n _ d => s.settleMwait t th n d
  | _ => s

/-- Whether a team's waits are tested: it is on a core, or it was put out in this cycle, so that a wake that meets the swap is recorded
with it (R359). -/
def State.waitsTested (s : State) (t : Team) : Bool := t.status == .resident || s.happened [19, t.uid]

/-- The waiting threads of a team, in increasing order of THREADID, whenever they began to wait; so that the lowest of several waiting
STLOOPs starts the next loop, and the lowest of several STGETs takes the next index (DESIGN CHOICE: log 118). -/
def Team.waiters (t : Team) : List Nat := sortBy id ((t.threads.filter (·.blocked.isSome)).map (·.tid))

/-- Threads of a team with a test of their waits, as each finds the machine. -/
def State.settleThreads (test : State → Team → Thread → Blocked → State) (s : State) (uid : Nat) (tids : List Nat) : State :=
  match tids with
  | [] => s
  | tid :: rest =>
    let s := match s.team? uid with
      | none => s
      | some t => match t.thread? tid with
        | none => s
        | some th => match th.blocked with
          | none => s
          | some b => test s t th b
    State.settleThreads test s uid rest

/-- Does something to a team that is still there. -/
def State.onTeam (s : State) (uid : Nat) (f : State → Team → State) : State :=
  match s.team? uid with
  | none => s
  | some t => f s t

/-- The range fences of a team's threads that may retire do, in the order in which they issued (R129). -/
def State.settleFences (s : State) (uid : Nat) (fs : List (Nat × RangeFence)) : State :=
  match fs with
  | [] => s
  | f :: rest =>
    let s := s.onTeam uid fun s t => match t.thread? f.1 with
      | some th => s.retireFence t th f.2
      | none => s
    s.settleFences uid rest

def Team.allFences (t : Team) : List (Nat × RangeFence) :=
  sortBy (·.2.id) (t.threads.flatMap fun th => th.fences.map fun f => (th.tid, f))

/-- What a team settles: on a core, all; put out in this cycle, its waits (R359). -/
def State.settleTeam (s : State) (uid : Nat) : State :=
  s.onTeam uid fun s t =>
    if !s.waitsTested t then s
    else if t.status ≠ .resident then State.settleThreads State.settleWait s uid t.waiters
    else
      let s := s.settleFences uid t.allFences
      let s := State.settleThreads State.settleWait s uid t.waiters
      let s := t.homeWaveNumbers.foldl (fun s hw => s.settleHolder uid hw) s
      let s := (s.settleBarriers uid).settleReconv uid t.homeWaveNumbers
      let s := s.onTeam uid State.settlePenter
      s.onTeam uid State.settleLeave

/-! ## Deferred stores and atomics (R120) -/

/-- Whether one that was deferred earlier comes first: of the same thread or instruction, on the same lines (R116, R280). -/
def Deferred.waitsFor (d e : Deferred) : Bool :=
  decide (e.id < d.id) && d.uid == e.uid && (d.tid == e.tid || d.since == e.since) && d.loc == e.loc
    && d.lines.any fun l => e.lines.contains l

/-- Whether the release of a deferred store has taken effect. -/
def State.deferredOk (s : State) (d : Deferred) : Bool :=
  !(s.deferred.any d.waitsFor)
    && (match s.thread? d.uid d.tid with
      | some th => loadsBound .normal d.since th
      | none => true)
    && storesDone s .normal d.sc d.uid d.tid d.since && clusterDone s .normal d.sc d.cluster d.since

def State.settleDeferred (s : State) (ds : List Deferred) : State :=
  match ds with
  | [] => s
  | d :: rest => State.settleDeferred (if s.deferredOk d then s.performDeferred d else s) rest

/-! ## Parked waves (R42, R121, R206, R276) -/

/-- The part that went on has not issued since: it is still the partner, at the same address. -/
def State.partner? (s : State) (p : Park) : Option Wave :=
  p.partner.bind fun x => s.waves.find? fun w => w.wid == x.1 && w.issued == x.2
    && w.tids.all fun i => (s.thread? w.uid i).any (·.pc == p.pc)

/-- A parked part has its values: it merges with the part that went on, which issues no more in that cycle, or is filed (R42). -/
def State.rejoin (s : State) (w : Wave) (p : Park) : State :=
  match s.partner? p with
  | some q =>
    let s := { s.takePlace (s.dieOf w.uid) [24, q.wid] 1 with waves := s.waves.filter (·.wid != w.wid) }
    s.updWave q.wid fun q => { q with lanes := sortBy (·.1) (q.lanes ++ w.lanes) }
  | none => w.tids.foldl (fun s i => s.file w.uid i p.pc) { s with waves := s.waves.filter (·.wid != w.wid) }

/-- A parked wave whose operations are done goes on: a trap, or its bound results and its acquire. -/
def State.unpark (s : State) (w : Wave) (p : Park) : State :=
  if p.refused ≠ [] then
    s.trapWave w.wid p.pc p.cause (w.tids.filterMap fun i => p.refused.find? fun (x : Nat × Nat) => x.1 == i)
  else s.onTeam w.uid fun s t =>
    let s := if p.mark then s.updTeam w.uid fun t => t.flushAll s.lastResult w.tids else s
    let s := match p.acq with
      | some sc => s.acquire sc t
      | none => s
    if p.split then s.rejoin w p
    else (s.updWave w.wid fun w => { w with park := none, age := s.seq }).tick

def State.settleParks (s : State) (wids : List Nat) : State :=
  match wids with
  | [] => s
  | wid :: rest =>
    let s := match s.wave? wid with
      | none => s
      | some w => match w.park with
        | none => s
        | some p => if s.opsLeft w.uid p.ops then s else s.inTime fun s => s.unpark w p
    s.settleParks rest

/-! ## The end of a team (R98, R102, R354) -/

/-- A team whose threads have all exited: its unresolved guard slots become FALSE, its open batches are sealed, and it leaves its
parcels or withdraws its request (R64, R98, R102). -/
def State.closeTeam (s : State) (t : Team) : State :=
  let shut := fun (g : GuardSlot) => if g = .unresolved then .false else g
  let close := fun (k : Courier) => if k.uid = t.uid ∧ k.batch = 0 then { k with batch := k.number } else k
  { (s.withdraw t).updTeam t.uid (fun t => { t with guards := t.guards.map shut }) with couriers := s.couriers.map close }

/-- What the granules of a team hold: those of its local space are its first ones. -/
def Team.leaves (t : Team) : List (Nat × List Host.Cell) :=
  ((iota 0 t.granules.length).zip t.granules).map fun x =>
    (512 * t.pkCluster + x.2, (t.loc.filter fun c => decide (c.1 / 4096 = x.1)).map fun c => (c.1 % 4096, c.2))

/-- It leaves its core once no engine command of it is left; local memory keeps what it wrote until it is granted again. -/
def State.endTeam (s : State) (t : Team) : State :=
  if s.couriers.any (·.uid == t.uid) || s.matrix.any (·.uid == t.uid) then s
  else
    { s.updGrid t.gid (fun g => { g with ended := g.ended + 1 }) with
      teams := s.teams.filter (·.uid != t.uid), engines := s.engines.filter (·.uid != t.uid)
      granuleLeft := s.granuleLeft ++ t.leaves.filter fun x => !x.2.isEmpty
      deferred := s.deferred.filter fun d => d.uid != t.uid || !d.loc }

def State.endTeams (s : State) (ts : List Team) : State :=
  match ts with
  | [] => s
  | t :: rest =>
    State.endTeams (if t.started && t.threads.isEmpty then s.inTime fun s => (s.closeTeam t).onTeam t.uid State.endTeam else s) rest

/-! ## One pass -/

/-- The held courier commands and matrix commands, in order. -/
def State.settleHeld (s : State) : State :=
  let s := (s.couriers.filter (·.state == .held)).foldl (fun s k => s.inTime fun s => s.settleHeldCourier k) s
  (s.matrix.filter (·.state == .held)).foldl (fun s k => s.inTime fun s => s.settleHeldMatrix k) s

/-- Faults that no thread is left to take, and reports that no handler can receive. -/
def State.settleReports (s : State) : State :=
  let s := s.reportCouriers s.couriers
  let s := (s.engines.map (·.uid)).foldl State.reportMatrix s
  let s := s.reportRemotes s.remotes
  (s.settleJoins s.contexts).lostReports s.contexts

/-- Pre-emptions that are complete, and unloads that have waited for their grids (R369, R378). -/
def State.settleCommands (s : State) : State :=
  let s := (s.contexts.map (·.num)).foldl State.preemptComplete s
  let s := s.settleUnloads s.contexts
  s.postUnsent s.unsent

/-- The home slices serve the reads of the blocks that the step fetched (R40, R47). -/
def State.settleFetches (s : State) : State :=
  { s.fetches.foldl (fun s a => s.demandRead a 32) s with fetches := [] }

/-- The end of a step. -/
def State.settle (s : State) : State :=
  let s := s.settleFetches
  let s := s.settleDeferred (sortBy (·.id) s.deferred)
  let s := s.settleParks (s.waves.map (·.wid))
  let s := (s.teams.map (·.uid)).foldl (fun s uid => s.inTime fun s => s.settleTeam uid) s
  let s := s.settleHeld
  let s := s.sendRemotes s.remotes
  let s := s.inTime State.settleReports
  let s := s.teams.foldl State.enterTeam s
  let s := s.earlyTriggers s.grids
  let s := s.endTeams s.teams
  s.settleCommands

end Sys2Proof.Machine
end

