-- ==== Sys2Proof/Machine/Cycle.lean ====
section
/-! DEFINITION. What the end of a core cycle settles: the readiness evaluation, the tests that come after all of the cycle's events, the
meres, the PAC (R71, R77, R163, R170, R332, R341). And the order of events that meet in one cycle: an event that comes after one which it
should precede does not happen in that cycle (R42, R52, R77, R102, R105, R137, R173, R258, R290, R306, R327, R332, R336, R347, R369, R382,
R399; log 99). -/

namespace Sys2Proof.Machine

/-! ## The end of a cycle -/

/-- What a team settles at the end of a cycle. -/
def State.closeTeamCycle (s : State) (uid : Nat) : State :=
  s.onTeam uid fun s t =>
    if !s.waitsTested t then s
    else
      let s := State.settleThreads State.closeWait s uid t.waiters
      if t.status = .resident then s.onTeam uid State.settleGrow else s

/-- Whether a mark is one of a cycle that ends on some dies; a mark of an effect that came too late is none's. -/
def Mark.over (m : Mark) (dies : List Nat) : Bool := dies.contains m.die || m.key == [99]

/-- Whether a guard write belongs to a cycle that ends on some dies, or its team is gone. -/
def State.writeOver (s : State) (dies : List Nat) (w : Nat × Nat × Nat) : Bool :=
  (s.team? w.1).all fun t => dies.contains t.die

/-- A cycle ends on some dies: the task formers, the tests of the waits, the filings into meres, the PAC's tests on die 0. An
acquire of this moment comes before the lookups of the next cycle (R290). -/
def State.closeCycle (s : State) (dies : List Nat) : State :=
  let s := { s with marks := s.marks.filter fun m => !(dies.contains m.die && m.key.head? == some 25) }
  let clusters := (distinct (s.pool.map (·.cluster))).filter fun c => dies.contains (c / 32)
  let s := clusters.foldl State.gather s
  let s := ((s.teams.filter fun t => dies.contains t.die).map (·.uid)).foldl State.closeTeamCycle s
  let s := s.runMeres dies
  let s := if dies.contains 0 then s.expireDue.settlePac else s
  { s with marks := s.marks.filter fun m => !m.over dies
           guardWrites := s.guardWrites.filter fun w => !s.writeOver dies w }

/-- Cycles that pass on each die (R203). -/
def passCycles (cycles elapse : List Nat) : List Nat :=
  match cycles, elapse with
  | c :: cs, e :: es => ((c + e) % 2 ^ 64) :: passCycles cs es
  | cs, _ => cs

/-- Cycles pass, if any do: the current one ends on the dies concerned; in the new one meres release by age (R163) before anything
else; leases that ended in a cycle passed over are over (R90), and deadlines too (R378). -/
def State.passOnce (s : State) (elapse : List Nat) : State :=
  let dies := (iota 0 4).filter fun d => elapse.getD d 0 != 0
  if dies = [] then s
  else
    let s := s.closeCycle dies
    let s := ((({ s with cycles := passCycles s.cycles elapse }).releaseDue).expirePassed).preemptResets
    { s with marks := s.marks.filter fun m => m.key != [99] }

/-- Whether the ends of further cycles bring about nothing: no task is pooled, no request queued, no thread unfiled. -/
def State.quiet (s : State) : Bool :=
  s.pool.isEmpty && s.admission.isEmpty && s.teams.all fun t => t.threads.all fun th => th.filing.isNone

/-- Cycles pass one by one, n at most on each die, or together once nothing happens in them. -/
def State.passMany (n : Nat) (s : State) (elapse : List Nat) : State :=
  match n with
  | 0 => s
  | n + 1 =>
    let s := s.passOnce (elapse.map (min 1))
    let rest := elapse.map (· - 1)
    if s.quiet then s.passOnce rest else s.passMany n rest

def State.pass (s : State) (elapse : List Nat) : State := s.passMany (elapse.foldl max 0) elapse

/-! ## Events of one cycle -/

/-- The same place on each die. -/
def onDies (k : List Nat) (rank : Nat) : List Mark := (iota 0 4).map fun d => ⟨d, k ++ [d], rank⟩

/-- The place of an event among the PAC's of one cycle: by kind, package-wide core, slot and thread (R77). -/
def pacRank (kind core slot tid : Nat) : Nat := ((kind * 1024 + core) * 16 + slot) * 1024 + tid

/-- The places of an instruction among the events that it may meet in its cycle. -/
def issuePlaces (x : Issue) : List Mark :=
  let t := x.team
  let cl := t.pkCluster
  let tid := (x.wave.tids.min?).getD 0
  let here := fun (k : List Nat) (r : Nat) => (⟨t.die, k, r⟩ : Mark)
  let pac := fun (kind : Nat) => (⟨0, [22], pacRank kind t.pkCore t.slot tid⟩ : Mark)
  here [2, x.wave.wid] 0 :: here [24, x.wave.wid] 0 :: here [28, t.die] 0 :: match x.op with
    | 0x05 | 0x06 => [here [13, t.die] 0]
    | 0x0C => [here [15, x.grid.ctx] 1]
    | 0x80 | 0x81 | 0x82 | 0x83 | 0x84 | 0x85 | 0x86 | 0x87 | 0x8A | 0xBA => [here [6, cl] 2]
    | 0xA0 => [pac 5]
    | 0xA1 => [pac 4]
    | 0xA3 => [pac 3]
    | 0xA6 => [pac 6, here [21] 0]
    | 0xA7 => [pac 6, ⟨0, [20], 0⟩]
    | 0xA8 => [⟨0, [20], 1⟩]
    | 0xAD | 0xC7 => [here [18, t.pkCore] 1]
    | 0xB8 | 0xB9 => [here [5, t.pkCore] 0]
    | 0xD3 | 0xD8 => [here [3, cl] 1]
    | 0xD4 => [here [3, cl] 0]
    | 0xD5 => [here [3, cl] 3]
    | 0xD7 => [here [12, t.die] 0]
    | 0xD9 => x.parts.map fun lt => ⟨x.e lt 32 % 4, [4, x.e lt 32 % 4], t.pkCore⟩
    | 0xDA => x.parts.map fun lt => ⟨x.a lt 32 % 4, [4, x.a lt 32 % 4], 512 + t.pkCore⟩
    | 0xDB => [here [9, t.uid] tid]
    | 0xDD | 0xDE | 0xE0 => [here [8, t.uid] 0]
    | 0xDF => [here [8, t.uid] 1]
    | 0xE2 => [here [10, cl] 1, here [12, t.die] 0]
    | 0xF0 | 0xF1 | 0xF2 | 0xF3 | 0xF4 => [here [32, t.die] 1]
    | _ => []

/-- The die of a line's home slice. -/
def lineDie (line : Nat) : Nat := (lineHome line).1 / 64

/-- The places of a message's arrival at its home slice. -/
def Msg.places (m : Msg) : List Mark :=
  let d := lineDie m.line
  (if isPolderLine m.line then [⟨d, [27, (lineHome m.line).1], 1⟩] else []) ++ match m.what with
    | .atomic .. => [⟨d, [16, m.line], 0⟩]
    | .grantReq _ => [⟨d, [16, m.line], 1 + m.cluster⟩]
    | _ => []

/-- The places of another agent's step. Those of an engine count as of core 512 at the PAC (R77). -/
def State.eventPlaces (s : State) (i : Instr) : List Mark :=
  let msg := fun (id : Nat) => ((s.msg? id).map Msg.places).getD []
  let ended := fun (core : Nat) => [(⟨core / 128, [6, core / 4], 0⟩ : Mark), ⟨core / 128, [18, core], 0⟩]
  let courier := fun (id : Nat) => ((s.couriers.find? (·.id == id)).map fun k => ended k.core).getD []
  let start := fun (core : Nat) => (⟨core / 128, [5, core], 1⟩ : Mark) :: ended core
  let pac := fun (kind : Nat) => (⟨0, [22], pacRank kind 512 0 0⟩ : Mark)
  match i with
  | .contextKill h _ => [⟨0, [15, h.ctx], 0⟩]
  | .storeAck id => ((s.msg? id).map fun m => [(⟨m.cluster / 32, [15, m.ctx], 1⟩ : Mark)]).getD []
  | .remoteAck id => ((s.remotes.find? (·.id == id)).map fun r => [(⟨r.core / 128, [15, r.ctx], 1⟩ : Mark)]).getD []
  | .preempt .. | .preemptReset _ | .reportDelivery _ => onDies [28] 1
  | .swapOut d => [⟨d, [28, d], 1⟩]
  | .homeSliceAtomicArrival id | .grantRequest id | .homeSliceReadArrival id | .homeSliceWriteArrival id => msg id
  | .courierCommandComplete id | .courierCommandFault id | .slotBytesLanded id _ => courier id
  | .matrixCommandComplete core | .matrixCommandFault core => ended core
  | .courierCommandStart core | .matrixCommandStart core => start core
  | .fillComplete _ => [pac 2, ⟨0, [21], 0⟩]
  | .evictionComplete _ => [pac 2]
  | .leaseExpiry _ => [pac 6, ⟨0, [20], 0⟩]
  | .launchAccept cl => [⟨cl / 32, [10, cl], 0⟩]
  | .dlrDrain _ => onDies [12] 1
  | .flip .. => onDies [13] 0
  | .teamDispatch d => [⟨d, [13, d], 1⟩, pac 4]
  | .swapIn d => [⟨d, [13, d], 1⟩]
  | .taskGather cl => [⟨cl / 32, [17, cl], 0⟩]
  | .nocAvoid .. | .linkFailure _ => onDies [31] 0
  | .packetForward sw _ => [⟨switchDie sw, [31, switchDie sw], 1⟩]
  | .portMode .. => onDies [32] 0
  | .contextUnload h _ => [⟨0, [33, h.ctx], 0⟩]
  | .containmentComplete ctx => [⟨0, [33, ctx], 0⟩]
  | .amsgArrival source .. => [⟨0, [33, amsgCtx source], 1⟩]
  | _ => []

/-- The places of what a turn has come to: an instruction of the current wave, or another agent's step. -/
def State.placesOf (s : State) (i : Option Instr) : List Mark :=
  match i with
  | none => []
  | some i => match i.opFields with
    | none => s.eventPlaces i
    | some (op, f) => ((s.issue? op f).map issuePlaces).getD []

/-- The places of what L1 slices and home slices do on their own: a store is accepted before a load of its line looks it up, and the
end of a lease comes before the accesses to its polder (R92, R290). -/
def State.actPlaces (s : State) (a : Act) : List Mark :=
  match a with
  | .accept id => ((s.msg? id).map fun m => match m.what with
    | .toL1 .. => [(⟨m.cluster / 32, [26, m.cluster, m.line], 0⟩ : Mark)]
    | .lookup _ => [⟨m.cluster / 32, [26, m.cluster, m.line], 1⟩, ⟨m.cluster / 32, [25, m.cluster], 1⟩]
    | _ => []).getD []
  | .endSlice _ slice => [⟨slice / 64, [27, slice], 0⟩]
  | _ => []

/-- Whether an event that should come after one of these has happened in this cycle. -/
def State.barred (s : State) (ks : List Mark) : Bool := ks.any fun k => s.tooLate k.key k.rank

/-- The events happen in this cycle. -/
def State.noteAll (s : State) (ks : List Mark) : State := { s with marks := ks ++ s.marks }

end Sys2Proof.Machine
end

