-- ==== Sys2Proof/Machine/Issue.lean ====
section
/-! DEFINITION. Whose turn it is, and what a turn is before an instruction executes: a wave fetches (R156, R196,
R367, R372), another agent acts, or the device replaces a copy. How an instruction is placed for the next step to fetch. -/

namespace Sys2Proof.Machine

/-! ## A wave issues -/

/-- Whether the waves of a team may issue: it is on a core, and its context runs (R375, R378). -/
def State.teamRuns (s : State) (t : Team) : Bool :=
  t.status == .resident && (s.grid? t.gid).isSome && (s.ctx? (s.ctxOf t)).any fun c => match c.status with
    | .running => true
    | .preempting .. => true
    | .preempted => s.isHandlerTeam t
    | _ => false

/-- Whether a wave of a context that an ASSERT has stopped in this cycle still issues in it: the stop meets it at its next boundary
(R375). -/
def State.stopping (s : State) (w : Wave) (t : Team) : Bool :=
  t.status == .resident && (s.grid? t.gid).isSome && s.happened [1, s.ctxOf t] && !s.happened [2, w.wid]
    && (s.ctx? (s.ctxOf t)).any (·.status == .stopped)

/-- Whether a wave is stopped by nothing but its next instruction. -/
def State.open? (s : State) (w : Wave) : Bool :=
  w.park.isNone && s.boot == .openFull && (s.team? w.uid).any fun t => s.teamRuns t || s.stopping w t

/-- Whether a wave is ready to issue. -/
def State.ready (s : State) (w : Wave) : Bool := s.open? w && !w.waiting

/-- At trap priority: its threads run the handler (R372). -/
def State.atTrapPriority (s : State) (w : Wave) : Bool :=
  (s.team? w.uid).any fun t => t.threads.any fun th => th.handler && w.tids.contains th.tid

def State.coreOf (s : State) (w : Wave) : Option Nat := (s.team? w.uid).map Team.pkCore

/-- Whether a wave's quadrant takes it before another: trap priority first, and then age (R367). -/
def State.takenBefore (s : State) (v w : Wave) : Bool :=
  v.quadrant == w.quadrant && s.coreOf v == s.coreOf w && match s.atTrapPriority v, s.atTrapPriority w with
    | true, false => true
    | false, true => false
    | _, _ => decide (v.age < w.age)

/-- Whether a wave is the one that its quadrant takes next (R367). -/
def State.canIssue (s : State) (w : Wave) : Bool := s.ready w && s.waves.all fun v => !(s.ready v && s.takenBefore v w)

/-- A wave whose instruction waits to execute tries it again at any time, and takes no issue slot until it can. -/
def State.mayIssue (s : State) (w : Wave) : Bool := s.canIssue w || (w.waiting && s.open? w)

/-- Every thread of a wave stands at an address: the one after the pad words that were passed over. -/
def State.standAt (s : State) (w : Wave) (pc : DWord) : State := s.updThreads w.uid w.tids fun th => { th with pc := pc }

/-- What the fetch of a wave leaves: the instruction to execute, if it found one, and the state (R23, R196, R213, R372). -/
def State.takeFetched (s : State) (w : Wave) (num : Nat) (x : Fetched) : State × Option Instr :=
  match x with
  | .instr pc i s => (s.standAt w pc, some i)
  | .trap pc cause info s => ((s.standAt w pc).trapWave w.wid pc cause (w.tids.map fun tid => (tid, info)), none)
  | .poisoned pc => (s.killPoisoned num pc.toNat, none)
  | .pads pc s => (s.standAt w pc, none)

/-- Pad words that one issue passes over at most; the next issue goes on behind them. -/
def padLimit : Nat := 8

/-- A wave issues: it becomes the current wave, and its instruction is fetched. A thread whose handler has executed 2^20
instructions overruns in place of its next one (R372). -/
def State.issueWave (s : State) (wid : Nat) : State × Option Instr :=
  match s.wave? wid with
  | none => (s, none)
  | some w =>
    if !s.mayIssue w then (s, none)
    else match s.team? w.uid with
      | none => (s, none)
      | some t => match t.active w with
        | [] => (s, none)
        | l :: rest => match (l :: rest).find? fun l => l.2.overrun with
          | some l => (s.handlerOverrun t.uid l.2.tid, none)
          | none =>
            let s := { s with cur := wid }
            s.takeFetched w (s.ctxOf t) (s.fetch (s.ctxOf t) t.pkCore padLimit l.2.pc)

/-! ## A turn -/

/-- Whether a row of the opcode table is an instruction of the ISA, which only a wave executes. -/
def isaInstr (i : Instr) : Bool := i.opFields.isSome

/-- An act, up to the execution of an instruction or of another agent's step. -/
def State.act (s : State) (a : Act) : State × Option Instr :=
  match a with
  | .issue wid => s.issueWave wid
  | .event i => (s, if isaInstr i then none else some i)
  | .dropTlb u ctx page => (s.dropTlb u ctx page, none)
  | .dropWalk die ctx middle index => (s.dropWalk die ctx middle index, none)
  | .dropIBlock core addr => (s.dropIBlock core addr, none)
  | .accept id => (s.acceptMsg id, none)
  | .endSlice id slice => (s.endSlice id slice, none)
  | .fillMap die ctx i => (s.fillMap die ctx i, none)
  | .dropMap ctx i => (s.dropMap ctx i, none)

/-! ## With an empty agenda: what the device can do on its own -/

/-- The step of a message (R36 to R51). -/
def Msg.acts (m : Msg) : List Instr :=
  if m.arrived ≠ 0 then []
  else match m.what with
    | .lookup .. | .toL1 .. => []
    | .read .. => [.homeSliceReadArrival m.id]
    | .dram .. => [.gddr7ReadReturn m.id]
    | .fill .. => [.l1FillArrival m.id]
    | .write .. => [.homeSliceWriteArrival m.id]
    | .atomic .. => [.homeSliceAtomicArrival m.id]
    | .l1Atomic .. => []
    | .ack .. => [.storeAck m.id]
    | .grantReq _ => [.grantRequest m.id]
    | .grant .. => [.grant m.id]
    | .recall => [.recall m.id]
    | .release => [.releaseNotice m.id]

/-- The steps of a team's threads. -/
def State.teamActs (s : State) (t : Team) : List Instr :=
  if t.status ≠ .resident then []
  else
    (t.threads.flatMap fun th =>
      (((iota 0 th.pend.length).zip th.pend).filterMap fun p => if p.2.parts = 0 then some (.resultWriteback t.uid th.tid p.1) else none)
        ++ (match th.wait? with
          | some (.pause stop) => if stop ≤ s.now t.die then [.pauseExpire t.uid th.tid] else []
          | _ => []))
      ++ (if t.unreachable then [.barrierUnreachable t.uid] else [])

/-- The steps of the engines, the PAC and the polder table. -/
def State.engineActs (s : State) : List Instr :=
  (s.parcels.flatMap fun p => match p.state with
    | .filling => [.fillComplete p.id]
    | .evicting => [.evictionComplete p.id]
    | _ => [])
    ++ s.polders.map (fun p => .leaseExpiry p.id)
    ++ (s.couriers.flatMap fun k => match k.state with
      | .queued => [.courierCommandStart k.core]
      | .running => [.slotBytesLanded k.id 1, .courierCommandComplete k.id, .courierCommandFault k.id]
      | _ => [])
    ++ (s.matrix.flatMap fun k => match k.state with
      | .queued => [.matrixCommandStart k.core]
      | .running => [.matrixCommandComplete k.core, .matrixCommandFault k.core, .assistComplete k.core]
      | _ => [])

/-- The steps of the dispatchers, the launch unit and the CCCs. -/
def State.schedulerActs (s : State) : List Instr :=
  ((iota 0 4).flatMap fun d => if (s.dieQueue d).isEmpty then [] else [.teamDispatch d, .swapIn d])
    ++ ((iota 0 4).flatMap fun d => if (s.teams.any fun t => t.die == d && t.swappable) then [.swapOut d] else [])
    ++ ((iota 0 4).flatMap fun d => if 256 < (s.dieQueue d).length then (iota 0 4).map (.teamMigration d) else [])
    ++ (distinct (s.pendingLaunches.map (·.cluster))).map .launchAccept
    ++ (s.grids.flatMap fun g => [.constantCopy g.gid, .gridComplete g.gid])
    ++ (distinct (s.staging.map fun r => (r.cluster, r.ctx))).map (fun r => .stagingRetry r.1 r.2)
    ++ (distinct (s.pool.map (·.cluster))).map .taskGather
    ++ (s.meres.map fun m => .mereageRelease m.core m.uid m.pc.toNat)
    ++ s.contexts.flatMap fun c => [.dlrDrain c.num, .reportDelivery c.num, .preemptReset c.num, .preemptComplete c.num,
        .containmentComplete c.num]

/-- The steps of packets, and the answers of other devices. -/
def State.fabricActs (s : State) : List Instr :=
  (s.packets.flatMap fun p => .packetAgeTick p.id :: (iota 0 32).map (.packetForward p.switch))
    ++ ((s.remotes.filter Remote.abroad).flatMap fun r =>
      .remoteAck r.id :: ((iota 0x21 5 ++ iota 0x30 3).map (.fabricNack r.id)))
    ++ s.remotes.filterMap fun r => match r.what, r.at? with
      | .amsg h payload, some _ => some (.amsgArrival (.own r.ctx) r.va h payload)
      | _, _ => none

/-- What L1 slices may accept, or serve. -/
def State.accepts (s : State) : List Act := s.msgs.filterMap fun m => match m.what with
  | .lookup .. | .toL1 .. => some (.accept m.id)
  | _ => none

/-- The ends of leases that home slices may apply. -/
def State.sliceEnds (s : State) : List Act :=
  s.ending.flatMap fun e => ((iota 0 256).filter fun k => !e.applied.contains k).map (.endSlice e.id)

/-- What the device may replace. -/
def State.replacements (s : State) : List Act :=
  s.tlb.map (fun e => .dropTlb e.unit e.ctx e.page)
    ++ s.walks.map (fun e => .dropWalk e.die e.ctx e.middle e.index)
    ++ s.icache.map (fun b => .dropIBlock b.core b.addr)
    ++ s.mapCache.map fun m => .dropMap m.ctx m.index

/-- The wave that each quadrant takes next; under a power throttle quadrants may also skip their cycle (R407), which is `none`. -/
def State.issues (s : State) : List (Option Act) :=
  ((s.waves.filter s.mayIssue).map fun w => some (.issue w.wid)) ++ if s.throttled then [none] else []

/-- What may happen next without the outside world. -/
def State.candidates (s : State) : List (Option Act) :=
  s.issues
    ++ (s.msgs.flatMap Msg.acts ++ s.teams.flatMap s.teamActs ++ s.engineActs ++ s.schedulerActs ++ s.fabricActs).map
      (fun i => some (.event i))
    ++ (s.accepts ++ s.sliceEnds ++ s.replacements).map some

/-- One of the candidates, whichever it is; a single one needs no choice. -/
def State.freeAct (s : State) : Option Act :=
  match s.candidates with
  | [] => none
  | [a] => a
  | l => (l[s.choose [13] l.length]?).join

/-- The turn to take, and the state that has taken it off the agenda (log 1): with an empty agenda the device goes on by
itself, after cycles that nothing states. -/
def State.takeTurn (s : State) : State × Option Act :=
  match s.agenda with
  | t :: rest =>
    (({ s with agenda := rest, freeCtr := s.freeCtr + 1 } : State).pass t.elapse, some t.act)
  | [] =>
    let s := { s with freeCtr := s.freeCtr + 1 }
    let s := s.pass ((iota 0 4).map fun d => s.freeNat [14, d])
    (s, s.freeAct)

/-- A turn, up to the execution of an instruction or of another agent's step; one that comes too late in its cycle is passed over. -/
def State.turn (s : State) : State × Option Instr :=
  match s.takeTurn with
  | (s, none) => (s, none)
  | (s, some a) =>
    let r := s.act a
    let ks := s.actPlaces a ++ r.1.placesOf r.2
    if s.barred ks || r.1.late then (s, none) else (r.1.noteAll ks, r.2)

/-! ## Placing an instruction (log 24) -/

/-- Where it stands: a virtual address, and the page's physical address; the page tables in front of it. -/
def placedVa : Nat := 0x10000
def placedPa : Nat := 0x40000

/-- A root, a middle and a leaf table that map the page for every access, and the 16 bytes of a word. -/
def placedCells (w : Nat) : List Host.Cell :=
  cellsAt 0x10000 (toBytes 8 0x20001) ++ cellsAt 0x20000 (toBytes 8 0x30001) ++ cellsAt 0x30008 (toBytes 8 (placedPa + 0x1F))
    ++ cellsAt placedPa (toBytes 16 w)

/-- The launch record of the team that executes it: one thread. -/
def placedRecord : LaunchRec :=
  { entry := BitVec.ofNat 64 placedVa, vregs := 512, locals := 4096, guards := 16, tdcount := 64, matrix := true, ctx := 1 }

/-- A context whose memory holds an instruction, a team of one thread that stands at it, and its wave's turn, in a cycle in which
nothing has happened yet; its quadrant has no other wave. -/
def State.place (s : State) (w : Nat) : State :=
  let gid := s.seq
  let uid := s.seq + 1
  let wid := s.seq + 2
  let r := placedRecord
  { s with
    agenda := [⟨[], .issue wid⟩], seq := s.seq + 3, marks := [], guardWrites := [], boot := .openFull
    mem := Memory.write s.mem (placedCells w)
    contexts := { num := 1, xroot := 0x10001 } :: s.contexts.filter (·.num != 1)
    tlb := s.tlb.filter (·.ctx != 1), walks := s.walks.filter (·.ctx != 1), icache := []
    grids := s.grids ++ [({ gid, ctx := 1, lrec := r, depth := 0, origin := .host gid, order := gid } : Grid)]
    teams := s.teams ++ [({
      uid, gid, index := 0, die := 0, status := .resident, vregs := r.vregs, localSize := r.locals,
      guards := List.replicate 16 .unresolved, tds := List.replicate 64 none, threads := [{ tid := 0, pc := r.entry }],
      started := true } : Team)]
    engines := s.engines ++ [{ uid }]
    waves := s.waves.filter (fun v => !(v.quadrant == 0 && s.coreOf v == some 0)) ++ [({ wid, uid, lanes := [(0, 0)], quadrant := 0, age := wid } : Wave)] }

end Sys2Proof.Machine
end

