-- ==== Sys2Proof/Machine/Sfu.lean ====
section
/-! DEFINITION. The special functions (R193, R194, R265). A result that the manual gives exactly is computed; any other is
the free function `Config.sfu`, taken only where it lies within the bound of R193, and the nearest value where it does not
(log 8). The bounds of the seeds are tested exactly; the others on approximations good to 2^-240, or relatively to
2^-115 for RCP, RSQ and SQRT, which are exact wherever the result is a binary fraction: no FP32 value lies closer to a bound. -/

namespace Sys2Proof.Machine

/-! ## Fixed point: integers in units of 2^-256 -/

def fxOne : Nat := 2 ^ 256
def fxLn2 : Nat := 80260960185991308862233904206310070533990667611589946606122867505419956976171
def fxLog2e : Nat := 167052672916848388242985626561247531987276682633131050150846402744536260568207
def fxPi : Nat := 363771576891766324280234942777729862653393377328392429958772151117938894466185

/-- The whole part of a square root. -/
def isqrt (n : Nat) : Nat :=
  let rec go (fuel r b : Nat) : Nat :=
    match fuel with
    | 0 => r
    | fuel + 1 => go fuel (if (r + b) * (r + b) ≤ n then r + b else r) (b / 2)
  go (n.log2 / 2 + 2) 0 (2 ^ (n.log2 / 2 + 1))

/-- The exponential series of a fixed-point x at most 1. -/
def fxExp (x : Nat) : Nat :=
  let rec go (fuel k term sum : Nat) : Nat :=
    match fuel with
    | 0 => sum
    | fuel + 1 => go fuel (k + 1) (term * x / fxOne / k) (sum + term)
  go 64 1 fxOne 0

/-- 2^f of a fixed-point fraction. -/
def fxExp2 (f : Nat) : Nat := fxExp (f * fxLn2 / fxOne)

/-- log2 of a fixed-point u from 1 to 2, one bit at a time. -/
def fxLog2 (u : Nat) : Nat :=
  let rec go (fuel u w acc : Nat) : Nat :=
    match fuel with
    | 0 => acc
    | fuel + 1 =>
      let y := u * u / fxOne
      if 2 * fxOne ≤ y then go fuel (y / 2) (w / 2) (acc + w) else go fuel y (w / 2) acc
  go 252 u (fxOne / 2) 0

/-- The sine series of a fixed-point x from 0 to 2. -/
def fxSin (x : Nat) : Nat :=
  let rec go (fuel k : Nat) (neg : Bool) (term : Nat) (sum : Int) : Int :=
    match fuel with
    | 0 => sum
    | fuel + 1 =>
      go fuel (k + 2) (!neg) (term * x / fxOne * x / fxOne / ((k + 1) * (k + 2))) (if neg then sum - term else sum + term)
  (go 40 1 false x 0).toNat

/-- A finite value in fixed point, its low bits dropped, and its sign. -/
def fxOf (m : Nat) (e : Int) : Nat := if 0 ≤ e + 256 then m * 2 ^ (e + 256).toNat else m / 2 ^ (-(e + 256)).toNat

/-! ## Approximations of the exact results for a finite input that is not zero -/

/-- A result in fixed point as a value. -/
def fxVal (neg : Bool) (x : Nat) : FVal := .fin neg x (-256)

def approxRcp (neg : Bool) (m : Nat) (e : Int) : FVal := .fin neg (2 ^ (120 + m.log2) / m) (-(120 + m.log2 : Nat) - e)

/-- m * 2^e with an even exponent. -/
def evenExp (m : Nat) (e : Int) : Nat × Int := if e % 2 = 0 then (m, e) else (2 * m, e - 1)

def approxRsq (m : Nat) (e : Int) : FVal :=
  let (m, e) := evenExp m e
  let p := 120 + m.log2
  .fin false (isqrt (2 ^ (2 * p) / m)) (-(p : Nat) - e / 2)

def approxSqrt (m : Nat) (e : Int) : FVal :=
  let (m, e) := evenExp m e
  .fin false (isqrt (m * 2 ^ 240)) (e / 2 - 120)

/-- 2^x for |x| below 2^12 and x not whole. A negative x so small that the series reaches 1 gives a value just below it. -/
def approxExp2 (neg : Bool) (m : Nat) (e : Int) : FVal :=
  let z := fxOf m e
  if !neg then .fin false (fxExp2 (z % fxOne)) (-256 + (z / fxOne : Nat))
  else .fin false (min (fxExp2 (fxOne - z % fxOne)) (2 * fxOne - 1)) (-257 - (z / fxOne : Nat))

def approxLog2 (m : Nat) (e : Int) : FVal :=
  let z : Int := (fxLog2 (fxOf m (-(m.log2 : Nat))) : Nat) + (e + m.log2) * fxOne
  fxVal (decide (z < 0)) z.natAbs

/-- sin(pi t) for t in units of 2^-256, from 0 to 2. -/
def fxSinPi (t : Nat) : Bool × Nat :=
  let u := t % fxOne
  (decide (fxOne ≤ t), fxSin ((if fxOne / 2 < u then fxOne - u else u) * fxPi / fxOne))

def approxSinp (neg : Bool) (m : Nat) (e : Int) : FVal :=
  let r := fxSinPi (fxOf m e % (2 * fxOne))
  fxVal (neg != r.1) (min r.2 (fxOne - 1))

/-- The cosine of an x that is not whole: its magnitude is below 1. -/
def approxCosp (m : Nat) (e : Int) : FVal :=
  let r := fxSinPi ((fxOf m e + fxOne / 2) % (2 * fxOne))
  fxVal r.1 (min r.2 (fxOne - 1))

/-- tanh x for |x| below 9: (1 - q) / (1 + q) with q = 2^(-2 |x| log2 e). A tiny x gives a value just below it. -/
def approxTanh (neg : Bool) (m : Nat) (e : Int) : FVal :=
  if e + m.log2 < -60 then .fin neg (m * 2 ^ 100 - 1) (e - 100)
  else
    let y := 2 * fxOf m e * fxLog2e / fxOne
    let q := (if y % fxOne = 0 then fxOne else fxExp2 (fxOne - y % fxOne) / 2) / 2 ^ (y / fxOne)
    fxVal neg ((fxOne - q) * fxOne / (fxOne + q))

/-! ## Special inputs and exact results -/

/-- A signed zero, one and infinity. -/
def FVal.zero (neg : Bool) : FVal := .fin neg 0 0
def FVal.one (neg : Bool) : FVal := .fin neg 1 0

/-- Whether a value is a whole number, and whether an even one. -/
def isWhole (m : Nat) (e : Int) : Bool := decide (0 ≤ e) || decide (m % 2 ^ (-e).toNat = 0)
def isEvenWhole (m : Nat) (e : Int) : Bool := isWhole m (e - 1)

/-- Results that R193 and R194 give exactly, by opcode; the others are bounded. -/
def sfuExact (op : Nat) (x : FVal) : Option FVal :=
  match op, x with
  | _, .nan => some .nan
  | 0x70, .inf n => some (.zero n)
  | 0x72, .inf n => some (.zero n)
  | 0x71, .inf n => some (if n then .nan else .zero false)
  | 0x73, .inf n => some (if n then .nan else .zero false)
  | 0x74, .inf n => some (if n then .nan else .inf false)
  | 0x75, .inf n => some (if n then .zero false else .inf false)
  | 0x76, .inf n => some (if n then .nan else .inf false)
  | 0x79, .inf n => some (.one n)
  | _, .inf _ => some .nan
  | _, .fin n m e =>
    if m = 0 then
      match op with
      | 0x74 | 0x77 | 0x79 => some x
      | 0x75 | 0x78 => some (.one false)
      | 0x76 => some (.inf true)
      | _ => some (.inf n)
    else
      match op with
      | 0x71 | 0x73 => if n then some .nan else none
      | 0x74 =>
        if n then some .nan
        else
          let (m, e) := evenExp (m * 2 ^ 60) (e - 60)
          if isqrt m * isqrt m = m then some (.fin false (isqrt m) (e / 2)) else none
      | 0x75 =>
        if isWhole m e then some (.fin false 1 (if n then -(min (m * 2 ^ e.toNat / 2 ^ (-e).toNat) 4096 : Nat)
          else (min (m * 2 ^ e.toNat / 2 ^ (-e).toNat) 4096 : Nat)))
        else none
      | 0x76 =>
        if n then some .nan
        else if m = 2 ^ m.log2 then some (.ofInt (e + m.log2)) else none
      | 0x77 =>
        if isWhole m e then some (.zero n)
        else if isWhole m (e + 1) then
          -- an odd multiple k of 0.5: the sign of sin(pi k / 2)
          some (.one (n != decide (m * 2 ^ (e + 1).toNat / 2 ^ (-(e + 1)).toNat % 4 = 3)))
        else none
      | 0x78 =>
        if isWhole m e then some (.one (!isEvenWhole m e))
        else if isWhole m (e + 1) then some (.zero false) else none
      | 0x79 => if (FVal.fin false m e).lt (.fin false 9 0) then none else some (.one n)
      | _ => none

/-- The exact result, nearly, of a finite input. EXP2 of a number that is not whole has a magnitude below 2^52. -/
def sfuApprox (op : Nat) (n : Bool) (m : Nat) (e : Int) : FVal :=
  match op with
  | 0x70 | 0x72 => approxRcp n m e
  | 0x71 | 0x73 => approxRsq m e
  | 0x74 => approxSqrt m e
  | 0x75 => if 12 ≤ e + m.log2 then .fin false 1 (if n then -4096 else 4096) else approxExp2 n m e
  | 0x76 => approxLog2 m e
  | 0x77 => approxSinp n m e
  | 0x78 => approxCosp m e
  | _ => approxTanh n m e

/-- One unit in the last place of a format at a value, as a power of two: subnormal spacing included (R193). -/
def ulpExp (ty : Ty) (m : Nat) (e : Int) : Int := max ((m.log2 : Nat) + e) (1 - ty.fmt.bias) - ty.fmt.mbits

/-- |y - x| and k * 2^q, in one unit; none where one of the values is not finite. -/
def distance (y x : FVal) (k : Nat) (q : Int) : Option (Nat × Nat) :=
  match y, x with
  | .fin a m e, .fin b n f =>
    let u := min (min e f) q
    some ((scaledInt a m e u - scaledInt b n f u).natAbs, k * 2 ^ (q - u).toNat)
  | _, _ => none

/-- Whether |y - x| is below k * 2^q. -/
def nearer (y x : FVal) (k : Nat) (q : Int) : Bool := (distance y x k q).any fun d => decide (d.1 < d.2)

/-- Whether |y - x| is at most k * 2^q. -/
def nearBy (y x : FVal) (k : Nat) (q : Int) : Bool := (distance y x k q).any fun d => decide (d.1 ≤ d.2)

/-- A seed's bound, exactly: y is within 2^-14 of 1 / a relatively where |a y - 1| < 2^-14, and of 1 / sqrt a where a y^2 lies
between the squares of 1 - 2^-14 and 1 + 2^-14. -/
def seedBound (op : Nat) (y a : FVal) : Bool :=
  match y, a with
  | .fin s b f, .fin n m e =>
    if op = 0x70 then nearer (.fin (s != n) (b * m) (f + e)) (.one false) 1 (-14)
    else
      let p : FVal := .fin false (b * b * m) (2 * f + e)
      !s && (FVal.fin false ((2 ^ 14 - 1) ^ 2) (-28)).lt p && p.lt (.fin false ((2 ^ 14 + 1) ^ 2) (-28))
  | _, _ => false

/-- The bound of R193 on an FP32 result y, for the input a and the exact result x. -/
def sfuBound (op : Nat) (y a x : FVal) : Bool :=
  match x with
  | .fin _ m e =>
    match op with
    | 0x70 | 0x71 => seedBound op y a
    | 0x72 | 0x73 | 0x74 => nearer y x 1 (ulpExp .f32 m e)
    | 0x75 | 0x76 => nearer y x 2 (ulpExp .f32 m e)
    | _ => nearBy y x 1 (-22)
  | _ => false

/-- The least subnormal magnitude of a format. -/
def leastMagnitude (ty : Ty) : FVal := .fin false 1 (1 - ty.fmt.bias - ty.fmt.mbits)

def FVal.abs : FVal → FVal
  | .nan => .nan
  | .inf _ => .inf false
  | .fin _ m e => .fin false m e

/-- The result of an SFU form (R265). -/
def sfuResult (op : Nat) (ty : Ty) (r : Rnd) (sat : Bool) (bits : Nat) : Nat :=
  let x := FVal.decode ty bits
  let edge := fun (y : FVal) => y.abs.lt (leastMagnitude ty) || (FVal.decode ty ty.fmt.maxCode).lt y.abs
  match sfuExact op x, x with
  | some y, _ => y.round ty (if edge y then r else .rn) sat
  | none, .fin n m e =>
    let y := sfuApprox op n m e
    if edge y then y.round ty r sat
    else
      let near := y.round .f32 .rn false
      let free := Config.sfu op bits % 2 ^ 32
      let z := if sfuBound op (.decode .f32 free) x y then free else near
      if ty = .f32 then z
      else
        let h := (FVal.decode .f32 z).round .f16 .rn false
        match y with
        | .fin _ m e => if nearBy (.decode .f16 h) y 1 (ulpExp .f16 m e) then h
          else (FVal.decode .f32 near).round .f16 .rn false
        | _ => h
  | none, _ => nanResult ty

end Sys2Proof.Machine
end

