-- ==== Sys2Proof/Machine/SpecialFn.lean ====
section
/-! DEFINITION. The special-function instructions (R265). -/

namespace Sys2Proof.Machine

/-- An SFU form: the result of the special function of its opcode. -/
def sfuOp (x : Issue) (s : State) : State × Out :=
  let m := x.f.mods
  (x.write 32 (fun lt => sfuResult x.op m.ty m.rnd m.sat (x.fbits 1 lt x.f.a m.ty)) s, .go)

def execRcps (f : Fields) (s : State) := runWave 0x70 f sfuOp s
def execRsqs (f : Fields) (s : State) := runWave 0x71 f sfuOp s
def execRcp (f : Fields) (s : State) := runWave 0x72 f sfuOp s
def execRsq (f : Fields) (s : State) := runWave 0x73 f sfuOp s
def execSqrt (f : Fields) (s : State) := runWave 0x74 f sfuOp s
def execExp2 (f : Fields) (s : State) := runWave 0x75 f sfuOp s
def execLog2 (f : Fields) (s : State) := runWave 0x76 f sfuOp s
def execSinp (f : Fields) (s : State) := runWave 0x77 f sfuOp s
def execCosp (f : Fields) (s : State) := runWave 0x78 f sfuOp s
def execTanh (f : Fields) (s : State) := runWave 0x79 f sfuOp s

end Sys2Proof.Machine
end

