-- ==== Sys2Proof/Machine/Dispatch.lean ====
section
/-! DEFINITION. One arm for each row of the opcode table: the meaning it has. -/

namespace Sys2Proof.Machine

def exec (i : Instr) (s : State) : Host.Outcome State Fault Refusal :=
  match i with
  | .nop f => Sys2Proof.Machine.execNop f s
  | .bra f => Sys2Proof.Machine.execBra f s
  | .brx f => Sys2Proof.Machine.execBrx f s
  | .call f => Sys2Proof.Machine.execCall f s
  | .callx f => Sys2Proof.Machine.execCallx f s
  | .ret f => Sys2Proof.Machine.execRet f s
  | .exit f => Sys2Proof.Machine.execExit f s
  | .reform f => Sys2Proof.Machine.execReform f s
  | .reconv f => Sys2Proof.Machine.execReconv f s
  | .yield f => Sys2Proof.Machine.execYield f s
  | .trap f => Sys2Proof.Machine.execTrap f s
  | .trapretResume f => Sys2Proof.Machine.execTrapretResume f s
  | .trapretRetry f => Sys2Proof.Machine.execTrapretRetry f s
  | .trapretSkip f => Sys2Proof.Machine.execTrapretSkip f s
  | .assert f => Sys2Proof.Machine.execAssert f s
  | .pause f => Sys2Proof.Machine.execPause f s
  | .sreg f => Sys2Proof.Machine.execSreg f s
  | .swreg f => Sys2Proof.Machine.execSwreg f s
  | .iadd f => Sys2Proof.Machine.execIadd f s
  | .isub f => Sys2Proof.Machine.execIsub f s
  | .imul f => Sys2Proof.Machine.execImul f s
  | .imad f => Sys2Proof.Machine.execImad f s
  | .imulh f => Sys2Proof.Machine.execImulh f s
  | .imin f => Sys2Proof.Machine.execImin f s
  | .imax f => Sys2Proof.Machine.execImax f s
  | .iabs f => Sys2Proof.Machine.execIabs f s
  | .ineg f => Sys2Proof.Machine.execIneg f s
  | .isad f => Sys2Proof.Machine.execIsad f s
  | .iadd3 f => Sys2Proof.Machine.execIadd3 f s
  | .lea f => Sys2Proof.Machine.execLea f s
  | .icmp f => Sys2Proof.Machine.execIcmp f s
  | .isel f => Sys2Proof.Machine.execIsel f s
  | .mov f => Sys2Proof.Machine.execMov f s
  | .movl f => Sys2Proof.Machine.execMovl f s
  | .and f => Sys2Proof.Machine.execAnd f s
  | .or f => Sys2Proof.Machine.execOr f s
  | .xor f => Sys2Proof.Machine.execXor f s
  | .not f => Sys2Proof.Machine.execNot f s
  | .andn f => Sys2Proof.Machine.execAndn f s
  | .lop3 f => Sys2Proof.Machine.execLop3 f s
  | .shl f => Sys2Proof.Machine.execShl f s
  | .shr f => Sys2Proof.Machine.execShr f s
  | .shra f => Sys2Proof.Machine.execShra f s
  | .rot f => Sys2Proof.Machine.execRot f s
  | .funnel f => Sys2Proof.Machine.execFunnel f s
  | .bfe f => Sys2Proof.Machine.execBfe f s
  | .bfi f => Sys2Proof.Machine.execBfi f s
  | .popc f => Sys2Proof.Machine.execPopc f s
  | .clz f => Sys2Proof.Machine.execClz f s
  | .brev f => Sys2Proof.Machine.execBrev f s
  | .plop f => Sys2Proof.Machine.execPlop f s
  | .pmov f => Sys2Proof.Machine.execPmov f s
  | .cvti f => Sys2Proof.Machine.execCvti f s
  | .idot4 f => Sys2Proof.Machine.execIdot4 f s
  | .prmt f => Sys2Proof.Machine.execPrmt f s
  | .shfl f => Sys2Proof.Machine.execShfl f s
  | .vote f => Sys2Proof.Machine.execVote f s
  | .ballot f => Sys2Proof.Machine.execBallot f s
  | .wreduce f => Sys2Proof.Machine.execWreduce f s
  | .wscan f => Sys2Proof.Machine.execWscan f s
  | .matchOp f => Sys2Proof.Machine.execMatch f s
  | .elect f => Sys2Proof.Machine.execElect f s
  | .fadd f => Sys2Proof.Machine.execFadd f s
  | .fsub f => Sys2Proof.Machine.execFsub f s
  | .fmul f => Sys2Proof.Machine.execFmul f s
  | .fma f => Sys2Proof.Machine.execFma f s
  | .fmin f => Sys2Proof.Machine.execFmin f s
  | .fmax f => Sys2Proof.Machine.execFmax f s
  | .fcmp f => Sys2Proof.Machine.execFcmp f s
  | .fclass f => Sys2Proof.Machine.execFclass f s
  | .fscale f => Sys2Proof.Machine.execFscale f s
  | .frnd f => Sys2Proof.Machine.execFrnd f s
  | .fsgn f => Sys2Proof.Machine.execFsgn f s
  | .hfma2 f => Sys2Proof.Machine.execHfma2 f s
  | .hadd2 f => Sys2Proof.Machine.execHadd2 f s
  | .hmul2 f => Sys2Proof.Machine.execHmul2 f s
  | .fdot2 f => Sys2Proof.Machine.execFdot2 f s
  | .fdot4 f => Sys2Proof.Machine.execFdot4 f s
  | .rcps f => Sys2Proof.Machine.execRcps f s
  | .rsqs f => Sys2Proof.Machine.execRsqs f s
  | .rcp f => Sys2Proof.Machine.execRcp f s
  | .rsq f => Sys2Proof.Machine.execRsq f s
  | .sqrt f => Sys2Proof.Machine.execSqrt f s
  | .exp2 f => Sys2Proof.Machine.execExp2 f s
  | .log2 f => Sys2Proof.Machine.execLog2 f s
  | .sinp f => Sys2Proof.Machine.execSinp f s
  | .cosp f => Sys2Proof.Machine.execCosp f s
  | .tanh f => Sys2Proof.Machine.execTanh f s
  | .cvtf f => Sys2Proof.Machine.execCvtf f s
  | .cvtfi f => Sys2Proof.Machine.execCvtfi f s
  | .cvtif f => Sys2Proof.Machine.execCvtif f s
  | .pack f => Sys2Proof.Machine.execPack f s
  | .unpack f => Sys2Proof.Machine.execUnpack f s
  | .cvttd f => Sys2Proof.Machine.execCvttd f s
  | .ld f => Sys2Proof.Machine.execLd f s
  | .st f => Sys2Proof.Machine.execSt f s
  | .ldacq f => Sys2Proof.Machine.execLdacq f s
  | .strel f => Sys2Proof.Machine.execStrel f s
  | .atom f => Sys2Proof.Machine.execAtom f s
  | .atomc f => Sys2Proof.Machine.execAtomc f s
  | .atomf f => Sys2Proof.Machine.execAtomf f s
  | .red f => Sys2Proof.Machine.execRed f s
  | .fence f => Sys2Proof.Machine.execFence f s
  | .fencer f => Sys2Proof.Machine.execFencer f s
  | .pref f => Sys2Proof.Machine.execPref f s
  | .pdecl f => Sys2Proof.Machine.execPdecl f s
  | .penter f => Sys2Proof.Machine.execPenter f s
  | .pleave f => Sys2Proof.Machine.execPleave f s
  | .pfree f => Sys2Proof.Machine.execPfree f s
  | .pstat f => Sys2Proof.Machine.execPstat f s
  | .lease f => Sys2Proof.Machine.execLease f s
  | .unlease f => Sys2Proof.Machine.execUnlease f s
  | .lstat f => Sys2Proof.Machine.execLstat f s
  | .cpy f => Sys2Proof.Machine.execCpy f s
  | .cpy2d f => Sys2Proof.Machine.execCpy2d f s
  | .cpytd f => Sys2Proof.Machine.execCpytd f s
  | .seal f => Sys2Proof.Machine.execSeal f s
  | .waitb f => Sys2Proof.Machine.execWaitb f s
  | .kvcommit f => Sys2Proof.Machine.execKvcommit f s
  | .slotinit f => Sys2Proof.Machine.execSlotinit f s
  | .slotres f => Sys2Proof.Machine.execSlotres f s
  | .slottake f => Sys2Proof.Machine.execSlottake f s
  | .slotdone f => Sys2Proof.Machine.execSlotdone f s
  | .slotpeek f => Sys2Proof.Machine.execSlotpeek f s
  | .slotfill f => Sys2Proof.Machine.execSlotfill f s
  | .gres f => Sys2Proof.Machine.execGres f s
  | .gclr f => Sys2Proof.Machine.execGclr f s
  | .embq f => Sys2Proof.Machine.execEmbq f s
  | .tdset f => Sys2Proof.Machine.execTdset f s
  | .tdget f => Sys2Proof.Machine.execTdget f s
  | .mloadw f => Sys2Proof.Machine.execMloadw f s
  | .mswap f => Sys2Proof.Machine.execMswap f s
  | .mstream f => Sys2Proof.Machine.execMstream f s
  | .mzero f => Sys2Proof.Machine.execMzero f s
  | .mstore f => Sys2Proof.Machine.execMstore f s
  | .mwait f => Sys2Proof.Machine.execMwait f s
  | .mmask f => Sys2Proof.Machine.execMmask f s
  | .mstat f => Sys2Proof.Machine.execMstat f s
  | .mxop f => Sys2Proof.Machine.execMxop f s
  | .mresume f => Sys2Proof.Machine.execMresume f s
  | .bar f => Sys2Proof.Machine.execBar f s
  | .bara f => Sys2Proof.Machine.execBara f s
  | .barw f => Sys2Proof.Machine.execBarw f s
  | .evset f => Sys2Proof.Machine.execEvset f s
  | .evclr f => Sys2Proof.Machine.execEvclr f s
  | .evwait f => Sys2Proof.Machine.execEvwait f s
  | .evread f => Sys2Proof.Machine.execEvread f s
  | .taskpost f => Sys2Proof.Machine.execTaskpost f s
  | .taskend f => Sys2Proof.Machine.execTaskend f s
  | .sofput f => Sys2Proof.Machine.execSofput f s
  | .sofget f => Sys2Proof.Machine.execSofget f s
  | .stloop f => Sys2Proof.Machine.execStloop f s
  | .stget f => Sys2Proof.Machine.execStget f s
  | .stadv f => Sys2Proof.Machine.execStadv f s
  | .stjmp f => Sys2Proof.Machine.execStjmp f s
  | .waitl f => Sys2Proof.Machine.execWaitl f s
  | .stend f => Sys2Proof.Machine.execStend f s
  | .stqry f => Sys2Proof.Machine.execStqry f s
  | .launch f => Sys2Proof.Machine.execLaunch f s
  | .launchdep f => Sys2Proof.Machine.execLaunchdep f s
  | .join f => Sys2Proof.Machine.execJoin f s
  | .reggrow f => Sys2Proof.Machine.execReggrow f s
  | .regshrk f => Sys2Proof.Machine.execRegshrk f s
  | .wbsend f => Sys2Proof.Machine.execWbsend f s
  | .amsg f => Sys2Proof.Machine.execAmsg f s
  | .rstore f => Sys2Proof.Machine.execRstore f s
  | .rsig f => Sys2Proof.Machine.execRsig f s
  | .wbchk f => Sys2Proof.Machine.execWbchk f s
  | .tmapq f => Sys2Proof.Machine.execTmapq f s
  | .resultWriteback uid tid n => Sys2Proof.Machine.execResultWriteback uid tid n s
  | .l1FillArrival id => Sys2Proof.Machine.execL1FillArrival id s
  | .homeSliceWriteArrival id => Sys2Proof.Machine.execHomeSliceWriteArrival id s
  | .homeSliceReadArrival id => Sys2Proof.Machine.execHomeSliceReadArrival id s
  | .homeSliceAtomicArrival id => Sys2Proof.Machine.execHomeSliceAtomicArrival id s
  | .gddr7ReadReturn id => Sys2Proof.Machine.execGddr7ReadReturn id s
  | .storeAck id => Sys2Proof.Machine.execStoreAck id s
  | .grantRequest id => Sys2Proof.Machine.execGrantRequest id s
  | .recall id => Sys2Proof.Machine.execRecall id s
  | .releaseNotice id => Sys2Proof.Machine.execReleaseNotice id s
  | .grant id => Sys2Proof.Machine.execGrant id s
  | .walkComplete die ctx page => Sys2Proof.Machine.execWalkComplete die ctx page s
  | .mereageRelease core uid pc => Sys2Proof.Machine.execMereageRelease core uid pc s
  | .pauseExpire uid tid => Sys2Proof.Machine.execPauseExpire uid tid s
  | .barrierUnreachable uid => Sys2Proof.Machine.execBarrierUnreachable uid s
  | .taskGather cluster => Sys2Proof.Machine.execTaskGather cluster s
  | .fillComplete parcel => Sys2Proof.Machine.execFillComplete parcel s
  | .evictionComplete parcel => Sys2Proof.Machine.execEvictionComplete parcel s
  | .leaseExpiry polder => Sys2Proof.Machine.execLeaseExpiry polder s
  | .courierCommandStart core => Sys2Proof.Machine.execCourierCommandStart core s
  | .slotBytesLanded cmd bytes => Sys2Proof.Machine.execSlotBytesLanded cmd bytes s
  | .courierCommandComplete cmd => Sys2Proof.Machine.execCourierCommandComplete cmd s
  | .courierCommandFault cmd => Sys2Proof.Machine.execCourierCommandFault cmd s
  | .matrixCommandStart core => Sys2Proof.Machine.execMatrixCommandStart core s
  | .matrixCommandComplete core => Sys2Proof.Machine.execMatrixCommandComplete core s
  | .matrixCommandFault core => Sys2Proof.Machine.execMatrixCommandFault core s
  | .assistComplete core => Sys2Proof.Machine.execAssistComplete core s
  | .teamDispatch die => Sys2Proof.Machine.execTeamDispatch die s
  | .swapOut die => Sys2Proof.Machine.execSwapOut die s
  | .swapIn die => Sys2Proof.Machine.execSwapIn die s
  | .teamMigration src dst => Sys2Proof.Machine.execTeamMigration src dst s
  | .launchAccept cluster => Sys2Proof.Machine.execLaunchAccept cluster s
  | .constantCopy gid => Sys2Proof.Machine.execConstantCopy gid s
  | .dlrDrain ctx => Sys2Proof.Machine.execDlrDrain ctx s
  | .stagingRetry cluster ctx => Sys2Proof.Machine.execStagingRetry cluster ctx s
  | .gridComplete gid => Sys2Proof.Machine.execGridComplete gid s
  | .reportDelivery ctx => Sys2Proof.Machine.execReportDelivery ctx s
  | .handlerOverrun uid tid => Sys2Proof.Machine.execHandlerOverrun uid tid s
  | .preemptReset ctx => Sys2Proof.Machine.execPreemptReset ctx s
  | .preemptComplete ctx => Sys2Proof.Machine.execPreemptComplete ctx s
  | .uncorrectable p => Sys2Proof.Machine.execUncorrectable p s
  | .containmentComplete ctx => Sys2Proof.Machine.execContainmentComplete ctx s
  | .remoteAck id => Sys2Proof.Machine.execRemoteAck id s
  | .fabricNack id reason => Sys2Proof.Machine.execFabricNack id reason s
  | .remoteStoreArrival via va data => Sys2Proof.Machine.execRemoteStoreArrival via va data s
  | .wbsendArrival via va data => Sys2Proof.Machine.execWbsendArrival via va data s
  | .rsigArrival via va addend => Sys2Proof.Machine.execRsigArrival via va addend s
  | .amsgArrival source va h payload => Sys2Proof.Machine.execAmsgArrival source va h payload s
  | .packetForward switch port => Sys2Proof.Machine.execPacketForward switch port s
  | .packetAgeTick id => Sys2Proof.Machine.execPacketAgeTick id s
  | .linkFailure l => Sys2Proof.Machine.execLinkFailure l s
  | .linkUp l => Sys2Proof.Machine.execLinkUp l s
  | .hostUeWrite h va data => Sys2Proof.Machine.execHostUeWrite h va data s
  | .hostUeRead h va len => Sys2Proof.Machine.execHostUeRead h va len s
  | .hostLaunch h body => Sys2Proof.Machine.execHostLaunch h body s
  | .contextLoad h body => Sys2Proof.Machine.execContextLoad h body s
  | .contextUnload h body => Sys2Proof.Machine.execContextUnload h body s
  | .contextResume h body => Sys2Proof.Machine.execContextResume h body s
  | .contextKill h body => Sys2Proof.Machine.execContextKill h body s
  | .preempt h body => Sys2Proof.Machine.execPreempt h body s
  | .flip h body => Sys2Proof.Machine.execFlip h body s
  | .xlateInval h body => Sys2Proof.Machine.execXlateInval h body s
  | .pinBudget h body => Sys2Proof.Machine.execPinBudget h body s
  | .telemetry h body => Sys2Proof.Machine.execTelemetry h body s
  | .portMode h body => Sys2Proof.Machine.execPortMode h body s
  | .nocAvoid h body => Sys2Proof.Machine.execNocAvoid h body s
  | .amLoad h body => Sys2Proof.Machine.execAmLoad h body s
  | .identity h body => Sys2Proof.Machine.execIdentity h body s
  | .setId h body => Sys2Proof.Machine.execSetId h body s
  | .attest h body => Sys2Proof.Machine.execAttest h body s
  | .lifecycle h body => Sys2Proof.Machine.execLifecycle h body s
  | .hostReset h body => Sys2Proof.Machine.execReset h body s
  | .unknownCommand cmd h body => Sys2Proof.Machine.execUnknownCommand cmd h body s
  | .powerGood => Sys2Proof.Machine.execPowerGood s
  | .bringUpStepDone ok => Sys2Proof.Machine.execBringUpStepDone ok s
  | .powerThrottle on => Sys2Proof.Machine.execPowerThrottle on s
  | .junctionOvertemp => Sys2Proof.Machine.execJunctionOvertemp s
  | .inputVoltageFault => Sys2Proof.Machine.execInputVoltageFault s

end Sys2Proof.Machine
end

