-- ==== Sys2Proof/Machine/Step.lean ====
section
/-! DEFINITION. One step of the machine: a turn (log 1), the meaning of the instruction or of the agent's step it comes to, and
what comes about at its end. And the host's placement of an instruction for the next step (log 24). -/

namespace Sys2Proof.Machine

/-- A step: the turn of the agenda's head; the meaning it comes to, if it comes to one and does not come too late in its cycle; the end
of the step. -/
def step (s : State) : Host.Outcome State Fault Refusal :=
  match s.turn with
  | (s, none) => .next s.settle
  | (s, some i) =>
    match exec i s with
    | .next t => .next (if t.late then s else t).settle
    | .fault f => .fault f
    | .refused r => .refused r

/-- The state whose very next step fetches and runs the instruction with bits w (log 24). -/
def State.withFetchWord (s : State) (nbits w : Nat) : State := s.place (w % 2 ^ nbits)

end Sys2Proof.Machine
end

