-- ==== Sys2Proof/Safety.lean ====
section
/-! DEFINITION. What claims about the machine speak of: when an instruction of the ISA can execute, what a thread's registers
hold, what only the host and the device itself may change, and the canonical form that every step keeps. -/

namespace Sys2Proof.Machine

/-- The current wave executes an instruction, for which it does not wait, and which passes the checks 6 and 7 of R213: its issue is
x. -/
def State.Runs (s : State) (op : Nat) (f : Fields) (x : Issue) : Prop :=
  s.issue? op f = some x ∧ State.issueErr x.team x.wave op f = none ∧ x.wave.waiting = false

/-- The next instruction of the wave in program order. -/
def Issue.fall (x : Issue) : DWord := x.pc + BitVec.ofNat 64 x.len

/-- The instruction gives each participant a result of a width in D, a predicate, or nothing, and its wave goes on past it
(R159, R198, R200). -/
def Issue.gives (x : Issue) (w : Nat) (val : Nat × Thread → Nat) (s : State) : State := x.advance [] (x.write w val s)
def Issue.givesPred (x : Issue) (val : Nat × Thread → Bool) (s : State) : State := x.advance [] (x.writePred val s)

/-- The release that an instruction begins with has taken effect for each participant (R120, R132). -/
def Issue.released (x : Issue) (sc : Scope) : Prop :=
  ∀ lt ∈ x.parts, lt.2.released = true ∨ x.s.relOk .normal sc x.team lt.2 (x.wave.since.getD x.s.seq) = true

/-- A thread is in no lane of a wave. -/
def State.noWaveHolds (s : State) (wid tid : Nat) : Prop := ∀ w ∈ s.waves, w.wid = wid → tid ∉ w.tids

/-- The checks of R274 on a memory instruction, in order: the cause each raises, and the information it raises it with. -/
def Issue.memChecks (x : Issue) : List (Nat × (Nat × Thread → Option Nat)) :=
  [(0x04, misalignedErr x), (0x11, constWriteErr x), (0x15, localRangeErr x), (0x11, constRangeErr x), (0x10, xlateErr x),
   (0x11, permErr x), (0x14, parcelErr x), (0x13, embErr x)]

/-- Every participant of a memory instruction passes the checks of R274, and none of its accesses has to wait for an earlier
one of its thread. -/
def Issue.memClear (x : Issue) : Prop :=
  (∀ c ∈ x.memChecks, ∀ lt ∈ x.parts, c.2 lt = none) ∧ x.mustWait x.s = false

/-- No participant has a refused remote operation to report (R343). -/
def Issue.noNack (x : Issue) : Prop := ∀ lt ∈ x.parts, x.s.nackOf x.team.uid lt.2.tid = none

/-- The last participant that a test lets in. -/
def Issue.last? (x : Issue) (p : Nat × Thread → Bool) : Option (Nat × Thread) := (x.parts.filter p).getLast?

/-- The number that a finite value stands for (R181). -/
def FVal.toRat (x : FVal) : Rat :=
  match x with
  | .fin neg m e => (if neg then -1 else 1) * (m : Rat) * 2 ^ e
  | _ => 0

/-- From a state to a later one, a message for a host has been given to its port, or waits for it (log 127). -/
def State.tells (s t : State) (m : Outgoing) : Prop :=
  m ∈ t.outbox.drop s.outbox.length ∨ m ∈ t.unsent.drop s.unsent.length

/-- What a V register, an S register, a predicate of a thread holds (R199 to R202). -/
def State.vreg (s : State) (uid tid i : Nat) : Option Word := (s.thread? uid tid).map fun th => Sparse.get 0 th.v i
def State.sreg (s : State) (uid i : Nat) : Option DWord := (s.team? uid).map fun t => Sparse.get 0 t.s i
def State.preg (s : State) (uid tid n : Nat) : Option Bool := (s.thread? uid tid).map fun th => th.p.getLsbD n

/-- The results of a thread that are outstanding (R207). -/
def State.pending (s : State) (uid tid : Nat) : List Pend := ((s.thread? uid tid).map (·.pend)).getD []

/-- A thread has a result of a width outstanding, bound, for an operand field that may name no register (R198, R207). -/
def State.holdsResult (s : State) (uid tid : Nat) (o : Operand) (w val : Nat) : Prop :=
  operandWrites o w val = [] ∨ ∃ p ∈ s.pending uid tid, p.parts = 0 ∧ p.writes = operandWrites o w val

/-- A thread that has left its waves waits in its instruction (R159). -/
def State.waitsIn (s : State) (uid tid : Nat) (k : Wait) : Prop :=
  ∃ th b, s.thread? uid tid = some th ∧ th.blocked = some b ∧ b.wait = k

/-- The global bytes of a command's plan, by their places in it. -/
def Plan.global (p : Plan) (pick : Nat → Bool) : List Host.Cell :=
  ((List.range p.cells.length).zip p.cells).filterMap fun c => if c.2.1 || !pick c.1 then none else some c.2.2

/-- The command endpoint performs a command (R394, R395): a host's message reaches the port, no other command is in progress,
the device is fully open, and the body has the command's length. -/
def State.serves (s : State) (cmd : Nat) (h : CmdHdr) (body : List Byte) : Prop :=
  s.hears h.port = true ∧ s.commanding = false ∧ s.boot = .openFull ∧ cmdFits cmd body.length = true

/-- The last message to the hosts is the reply to a command, with a status and a body (R395). -/
def State.answers (s : State) (cmd : Nat) (h : CmdHdr) (status : Nat) (body : List Byte) : Prop :=
  s.outbox.getLast? = some ⟨h.port, h.host, h.ctx % 2 ^ 16, h.tag % 2 ^ 16, cmd, status, body⟩

/-- The memory keeps its canonical form. -/
def State.Inv (s : State) : Prop := Memory.wf s.mem = true

/-- What no instruction of the ISA and no engine changes: the clocks, the identity with its key, life cycle and firmware
version, the state of bring-up, the host's settings, the links that have failed, and a canonical memory stays canonical. -/
structure Kept (s t : State) : Prop where
  cycles : t.cycles = s.cycles
  deviceId : t.deviceId = s.deviceId
  lifecycle : t.lifecycle = s.lifecycle
  fwsvn : t.fwsvn = s.fwsvn
  boots : t.boots = s.boots
  boot : t.boot = s.boot
  pinBudget : t.pinBudget = s.pinBudget
  nocAvoid : t.nocAvoid = s.nocAvoid
  nocDown : t.nocDown = s.nocDown
  throttled : t.throttled = s.throttled
  signatures : t.signatures = s.signatures
  freeCtr : t.freeCtr = s.freeCtr
  agenda : t.agenda = s.agenda
  keyErased : t.keyErased = s.keyErased
  mem : Memory.wf s.mem = true → Memory.wf t.mem = true

/-- The steps that change the device's own state: the links, the host's settings and its RESET, bring-up and power. -/
def changesDevice : Instr → Bool
  | .linkFailure _ | .linkUp _ | .pinBudget .. | .nocAvoid .. | .setId .. | .attest .. | .lifecycle .. | .hostReset ..
  | .powerGood | .bringUpStepDone _ | .powerThrottle _ | .junctionOvertemp | .inputVoltageFault => true
  | _ => false

end Sys2Proof.Machine
end

