-- ==== Sys2Proof/Certificates/Slice0/Obligations.lean ====
section
/-! DEFINITION. The statements for the provers. -/

open Sys2Proof Sys2Proof.Machine

/-- Words that the spec writes out (R195, R197, R209, R211, and the examples of its chapters 9, 11, 13 and 16) and what they are. -/
def Obligations.DecodeExamples : Prop :=
  decodeAt 0 0x5807FB0060303B00 = .ok (.fadd { mods := { ty := .f32 }, d := .v 12, a := .v 3, b := .lit (-5) }, 8) ∧
  decodeAt 0 0x40060000_3804B960 = .ok (.icmp { fn := 1, mods := { ty := .n32 }, d := .lit 1, a := .v 1, b := .lit 0 }, 8) ∧
  decodeAt 0 0x000600C0_18003830 = .ok (.exit {}, 8) ∧
  decodeAt 16 0x00004E00_000600C0_18000809 = .ok (.bra { guard := .pred 1 false, x21 := 9 }, 12) ∧
  (∃ f, decodeAt 0 0x00080600_00060040_80203C05 = .ok (.ld f, 12) ∧
    f.marker = true ∧ f.mods.ty = .b32 ∧ f.d = .v 8 ∧ f.a = .s 4 ∧ f.x21 = 256) ∧
  (∃ f, decodeAt 0 0x00008600_25100800_C0105425 = .ok (.atom f, 12)) ∧
  (∃ f, decodeAt 0 0x000600C0_58003EF0 = .ok (.stjmp f, 8) ∧ f.a = .lit 2)

/-- No bit of an instruction is lost in its word (R195 to R212). -/
def Obligations.EncodeDecode : Prop :=
  ∀ i : Instr, isaInstr i = true → i.wf = true →
    ∃ w n, encode i = some (w, n) ∧ (n = 2 ∨ n = 3 ∨ n = 4) ∧ w < 2 ^ (32 * n) ∧
      ∀ off, off + 4 * n ≤ 32 → decodeAt off w = .ok (i, 4 * n)

/-- The decoder accepts no word with a bit that it does not read (R201, R208, R213). -/
def Obligations.DecodeEncode : Prop :=
  ∀ off w i n, decodeAt off w = .ok (i, n) →
    i.wf = true ∧ isaInstr i = true ∧ off + n ≤ 32 ∧ encode i = some (w % 2 ^ (8 * n), n / 4)

/-- Checks 1 to 5 of R213, in order, and the layout of R214. -/
def Obligations.DecodeRefusals : Prop :=
  (∀ off w, w % 4 = 3 → decodeAt off w = .error ⟨1, 0, 0, w % 2 ^ 32⟩) ∧
  (∀ off w, w % 4 ≠ 3 → 32 < off + 4 * (w % 4 + 2) → decodeAt off w = .error ⟨2, 0, 0, w % 2 ^ 32⟩) ∧
  (∀ off w, w % 4 ≠ 3 → off + 4 * (w % 4 + 2) ≤ 32 → form (w / 8 % 256) = none →
    decodeAt off w = .error ⟨0, w / 8 % 256, 0, w % 2 ^ 32⟩) ∧
  (∀ off w fm, w % 4 ≠ 3 → off + 4 * (w % 4 + 2) ≤ 32 → form (w / 8 % 256) = some fm → fm.words ≠ w % 4 + 2 →
    decodeAt off w = .error ⟨3, w / 8 % 256, 1, w % 2 ^ 32⟩) ∧
  (∀ off w fm e, w % 4 ≠ 3 → off + 4 * (w % 4 + 2) ≤ 32 → form (w / 8 % 256) = some fm → fm.words = w % 4 + 2 →
    decodeAt off w = .error e →
    e.op = w / 8 % 256 ∧ e.word = w % 2 ^ 32 ∧ 2 ≤ e.field ∧ e.field ≤ 11 ∧ 4 ≤ e.detail ∧ e.detail ≤ 11) ∧
  (∀ e : DecErr, e.detail < 256 → e.op < 256 → e.field < 16 → e.word < 2 ^ 32 →
    bits e.info 56 8 = e.detail ∧ bits e.info 48 8 = e.op ∧ bits e.info 44 4 = e.field ∧ bits e.info 32 12 = 0 ∧
      bits e.info 0 32 = e.word)

/-- Steps 5 to 7 of R400 and the wipe of R406. That the model's reset is the state after bring-up is its own choice (log 3). -/
def Obligations.ResetState : Prop :=
  let s := State.reset
  s.boot = .openFull ∧ s.pinBudget = 12 ∧ s.nocAvoid = 0 ∧ s.deviceId = 0 ∧
  s.ports.length = 16 ∧ (∀ p ∈ s.ports, p.waybillMode = false) ∧
  (∀ a, Memory.read s.mem a = 0) ∧ s.poison = [] ∧ s.cycles = [0, 0, 0, 0] ∧
  s.tlb = [] ∧ s.walks = [] ∧ s.l1 = [] ∧ s.l2 = [] ∧ s.granuleCtx = [] ∧ s.icache = [] ∧ s.events = [] ∧ s.offices = [] ∧ s.parcels = [] ∧ s.polders = [] ∧
  s.contexts = [] ∧ s.teams = [] ∧ s.waves = [] ∧ s.granuleLeft = [] ∧ s.unsent = [] ∧ s.marks = [] ∧ s.keyErased = false ∧ s.agenda = []

/-- The memory's canonical form holds at reset; the form is the model's own. -/
def Obligations.ResetCanonical : Prop := State.reset.Inv

/-- The invariant of memory, over every state and every step: instructions, engines, host and device. -/
def Obligations.MemoryStaysCanonical : Prop := ∀ s t : State, s.Inv → step s = .next t → t.Inv

/-- No step faults or refuses (the model's one fault, noWave, is raised by no step). -/
def Obligations.StepAlwaysAnswers : Prop := ∀ s : State, ∃ t, step s = .next t

/-- Fetch, decode, execute (R156, R196). Whose turn it is comes from the agenda (log 1), which events of one cycle come too late from
`State.barred` and `State.late` (log 99); which waves count as ready and how old one is are the model's reading of R367 (log 75).
`State.settle` is the end of a step. -/
def Obligations.StepRunsDecoded : Prop :=
  (∀ (s s' u : State) (elapse : List Nat) (wid : Nat) (rest : List Turn) (w : Wave) (t : Team) (l : Nat × Thread)
      (ls : List (Nat × Thread)) (d : BitVec 256) (i : Instr) (n : Nat),
    s.agenda = ⟨elapse, .issue wid⟩ :: rest →
    s' = ({ s with agenda := rest, freeCtr := s.freeCtr + 1 } : State).pass elapse →
    s'.wave? wid = some w → s'.mayIssue w = true → s'.team? w.uid = some t → t.active w = l :: ls →
    (∀ k ∈ l :: ls, k.2.overrun = false) →
    { s' with cur := wid }.fetchBlock (s'.ctxOf t) t.pkCore l.2.pc.toNat = .ok d u →
    blockFrom d (l.2.pc.toNat % 32) % 2 ^ 32 ≠ 3 →
    decodeAt (l.2.pc.toNat % 32) (blockFrom d (l.2.pc.toNat % 32)) = .ok (i, n) →
    let at? := u.standAt w l.2.pc
    let now := at?.noteAll (at?.placesOf (some i))
    step s = if s'.barred (at?.placesOf (some i)) || at?.late then .next s'.settle
      else match exec i now with
        | .next v => .next (if v.late then now else v).settle
        | .fault e => .fault e
        | .refused r => .refused r) ∧
  (∀ (s s' : State) (elapse : List Nat) (wid : Nat) (rest : List Turn) (v w : Wave),
    s.agenda = ⟨elapse, .issue wid⟩ :: rest →
    s' = ({ s with agenda := rest, freeCtr := s.freeCtr + 1 } : State).pass elapse →
    s'.wave? wid = some w → w.waiting = false → v ∈ s'.waves → s'.ready v = true → v.quadrant = w.quadrant → s'.coreOf v = s'.coreOf w →
    (s'.atTrapPriority v = true ∧ s'.atTrapPriority w = false ∨
      s'.atTrapPriority v = s'.atTrapPriority w ∧ v.age < w.age) → step s = .next s'.settle) ∧
  (∀ (s u : State) (ctx core fuel : Nat) (pc : DWord) (d : BitVec 256),
    s.fetchBlock ctx core pc.toNat = .ok d u → blockFrom d (pc.toNat % 32) % 2 ^ 32 = 3 →
    s.fetch ctx core (fuel + 1) pc = u.fetch ctx core fuel (pc + 4)) ∧
  (∀ (s u : State) (ctx core pc : Nat) (d : BitVec 256) (p : Part) (ps : List Part),
    s.translate (.core core) ctx pc 4 .fetch = .ok (p :: ps) → s.cachedBlock core (p.addr / 32 * 32) = none →
    s.fetchBlock ctx core pc = .ok d u → d = BitVec.ofNat 256 (Memory.num s.mem (p.addr / 32 * 32) 32)) ∧
  (∀ (s s' : State) (elapse : List Nat) (i : Instr) (rest : List Turn),
    s.agenda = ⟨elapse, .event i⟩ :: rest → isaInstr i = false →
    s' = ({ s with agenda := rest, freeCtr := s.freeCtr + 1 } : State).pass elapse →
    let now := s'.noteAll (s'.placesOf (some i))
    step s = if s'.barred (s'.placesOf (some i)) || s'.late then .next s'.settle
      else match exec i now with
        | .next v => .next (if v.late then now else v).settle
        | .fault e => .fault e
        | .refused r => .refused r) ∧
  (∀ s : State, s.pass [] = s)

/-- A whole-machine rule over all instructions (R393, R403, R405): who may change the device's own state. -/
def Obligations.DeviceStateKept : Prop :=
  ∀ (i : Instr) (s t : State), changesDevice i = false → exec i s = .next t → Kept s t

/-- R244. `x.ia`, `x.ib`, `x.ic` are OPA, OPB, OPC read as TY; a D that is no register reads 0 and takes no result. -/
def Obligations.IntegerArithmetic : Prop :=
  ∀ (s : State) (f : Fields) (x : Issue), f.mods.ty ∈ [Ty.i32, .n32, .i64, .n64] →
    let w := f.mods.ty.bits
    let lo : Int := if f.mods.ty.isSigned then -2 ^ (w - 1) else 0
    let hi : Int := if f.mods.ty.isSigned then 2 ^ (w - 1) - 1 else 2 ^ w - 1
    let writes := fun (v : Nat × Thread → Int) =>
      Host.Outcome.next (x.gives w (fun lt => ((if f.mods.sat then min (max (v lt) lo) hi else v lt) % 2 ^ w).toNat) s)
    (s.Runs 0x20 f x → exec (.iadd f) s = writes fun lt => x.ia lt + x.ib lt) ∧
    (s.Runs 0x21 f x → exec (.isub f) s = writes fun lt => x.ia lt - x.ib lt) ∧
    (s.Runs 0x22 f x → exec (.imul f) s = writes fun lt => x.ia lt * x.ib lt) ∧
    (s.Runs 0x23 f x → exec (.imad f) s = writes fun lt => x.ia lt * x.ib lt + x.ic lt) ∧
    (s.Runs 0x24 f x → exec (.imulh f) s = writes fun lt => x.ia lt * x.ib lt / 2 ^ w) ∧
    (s.Runs 0x25 f x → exec (.imin f) s = writes fun lt => if x.ia lt ≤ x.ib lt then x.ia lt else x.ib lt) ∧
    (s.Runs 0x26 f x → exec (.imax f) s = writes fun lt => if x.ia lt ≤ x.ib lt then x.ib lt else x.ia lt) ∧
    (s.Runs 0x27 f x → exec (.iabs f) s = writes fun lt => if x.ia lt < 0 then -x.ia lt else x.ia lt) ∧
    (s.Runs 0x28 f x → exec (.ineg f) s = writes fun lt => -x.ia lt) ∧
    (s.Runs 0x29 f x → f.mods.ty ∈ [Ty.i32, .n32] →
      exec (.isad f) s = writes fun lt =>
        (match f.d with | .lit _ => 0 | d => intValue f.mods.ty (x.val 0 lt.1 lt.2 d 32))
          + (if x.ia lt ≤ x.ib lt then x.ib lt - x.ia lt else x.ia lt - x.ib lt)) ∧
    (s.Runs 0x2A f x → exec (.iadd3 f) s = writes fun lt => x.ia lt + x.ib lt + x.ic lt)

/-- R245, R247. Each bitwise instruction gives a value below 2^w whose bits are as the rule says. -/
def Obligations.MovesAndLogic : Prop :=
  ∀ (s : State) (f : Fields) (x : Issue),
    let w := f.mods.ty.bits
    (s.Runs 0x2B f x → f.mods.ty ∈ [Ty.i32, .n32, .b64] →
      exec (.lea f) s = .next (x.gives 64 (fun lt =>
        (((if f.mods.ty = .i32 then (BitVec.ofNat 32 (x.a lt 32)).signExtend 64 else BitVec.ofNat 64 (x.a lt w))
          <<< (f.x21.toNat % 64)) + BitVec.ofNat 64 (x.b lt 64)).toNat) s)) ∧
    (s.Runs 0x2D f x → f.mods.ty ∈ [Ty.b32, .b64] →
      exec (.isel f) s = .next (x.advance [] (s.results 0x2D x.team.uid (x.parts.map fun lt =>
        (lt.2.tid, if x.b lt w = 0 then [] else operandWrites f.d w (x.a lt w)))))) ∧
    (s.Runs 0x2E f x → f.mods.ty ∈ [Ty.b32, .b64] → exec (.mov f) s = .next (x.gives w (fun lt => x.a lt w) s)) ∧
    (s.Runs 0x2F f x → f.mods.ty = .b32 → exec (.movl f) s = .next (x.gives 32 (fun _ => f.l32.toNat) s)) ∧
    (s.Runs 0x2F f x → f.mods.ty = .b64 →
      exec (.movl f) s = .next (x.gives 64 (fun _ => ((f.x21 ++ f.l32).signExtend 64).toNat) s)) ∧
    (f.mods.ty ∈ [Ty.b32, .b64] →
      let gives := fun (o : Host.Outcome State Fault Refusal) (bitOf : Nat × Thread → Nat → Bool) =>
        ∃ v, o = .next (x.gives w v s) ∧ ∀ lt, v lt < 2 ^ w ∧ ∀ i, i < w → (v lt).testBit i = bitOf lt i
      let a := fun lt i => (x.a lt w).testBit i
      let b := fun lt i => (x.b lt w).testBit i
      let c := fun lt i => (x.c lt w).testBit i
      (s.Runs 0x30 f x → gives (exec (.and f) s) fun lt i => a lt i && b lt i) ∧
      (s.Runs 0x31 f x → gives (exec (.or f) s) fun lt i => a lt i || b lt i) ∧
      (s.Runs 0x32 f x → gives (exec (.xor f) s) fun lt i => a lt i != b lt i) ∧
      (s.Runs 0x33 f x → gives (exec (.not f) s) fun lt i => !a lt i) ∧
      (s.Runs 0x34 f x → gives (exec (.andn f) s) fun lt i => a lt i && !b lt i) ∧
      (s.Runs 0x35 f x → gives (exec (.lop3 f) s) fun lt i =>
        (f.x21.toNat % 256).testBit (4 * (a lt i).toNat + 2 * (b lt i).toNat + (c lt i).toNat)) ∧
      (s.Runs 0x3F f x → gives (exec (.brev f) s) fun lt i => a lt (w - 1 - i)) ∧
      (s.Runs 0x3D f x → exec (.popc f) s = .next (x.gives w (fun lt => (List.range w).countP (a lt)) s)) ∧
      (s.Runs 0x3E f x → exec (.clz f) s = .next (x.gives w (fun lt =>
        if x.a lt w = 0 then w else w - 1 - (x.a lt w).log2) s)))

/-- R248. `>>>`, `<<<`, `sshiftRight` and `rotateLeft` are those of bit vectors of the type's width. -/
def Obligations.Shifts : Prop :=
  ∀ (s : State) (f : Fields) (x : Issue), f.mods.ty ∈ [Ty.b32, .b64] →
    let w := f.mods.ty.bits
    let a := fun lt => BitVec.ofNat w (x.a lt w)
    let n := fun lt => x.b lt 32
    (s.Runs 0x36 f x → exec (.shl f) s = .next (x.gives w (fun lt => (a lt <<< n lt).toNat) s)) ∧
    (s.Runs 0x37 f x → exec (.shr f) s = .next (x.gives w (fun lt => (a lt >>> n lt).toNat) s)) ∧
    (s.Runs 0x38 f x → exec (.shra f) s = .next (x.gives w (fun lt => ((a lt).sshiftRight (n lt)).toNat) s)) ∧
    (s.Runs 0x39 f x → exec (.rot f) s = .next (x.gives w (fun lt => ((a lt).rotateLeft (n lt % w)).toNat) s)) ∧
    (s.Runs 0x3A f x → exec (.funnel f) s = .next (x.gives w (fun lt =>
      (x.a lt w * 2 ^ w + x.b lt w) / 2 ^ (x.c lt 32 % w) % 2 ^ w) s))

/-- R249, bit by bit. -/
def Obligations.BitFields : Prop :=
  ∀ (s : State) (f : Fields) (x : Issue),
    let w := f.mods.ty.bits
    (s.Runs 0x3B f x → f.mods.ty ∈ [Ty.i32, .n32, .i64, .n64] →
      ∃ v, exec (.bfe f) s = .next (x.gives w v s) ∧ ∀ lt,
        let pos := x.b lt 32 % 256
        let len := x.b lt 32 / 256 % 256
        let l := min len (w - pos)
        v lt < 2 ^ w ∧ ∀ i, i < w → (v lt).testBit i =
          if len = 0 ∨ w ≤ pos then false
          else if i < l then (x.a lt w).testBit (pos + i)
          else f.mods.ty.isSigned && (x.a lt w).testBit (pos + l - 1)) ∧
    (s.Runs 0x3C f x → f.mods.ty ∈ [Ty.b32, .b64] →
      ∃ v, exec (.bfi f) s = .next (x.gives w v s) ∧ ∀ lt,
        let pos := x.c lt 32 % 256
        let len := x.c lt 32 / 256 % 256
        let l := min len (w - pos)
        v lt < 2 ^ w ∧ ∀ i, i < w → (v lt).testBit i =
          if len = 0 ∨ w ≤ pos then (x.a lt w).testBit i
          else if pos ≤ i ∧ i < pos + l then (x.b lt w).testBit (i - pos)
          else (x.a lt w).testBit i)

/-- R246, R250 (for its two instructions; VOTE and BALLOT have statements of their own). -/
def Obligations.PredicateOperations : Prop :=
  ∀ (s : State) (f : Fields) (x : Issue),
    (s.Runs 0x2C f x → f.fn.toNat < 6 → exec (.icmp f) s = .next (x.givesPred (fun lt =>
      match f.fn.toNat with
      | 0 => decide (x.ia lt = x.ib lt)
      | 1 => decide (x.ia lt ≠ x.ib lt)
      | 2 => decide (x.ia lt < x.ib lt)
      | 3 => decide (x.ia lt ≤ x.ib lt)
      | 4 => decide (x.ib lt < x.ia lt)
      | _ => decide (x.ib lt ≤ x.ia lt)) s)) ∧
    (∀ n m : Fin 7, s.Runs 0x40 f x → f.fn.toNat < 4 → f.a = .lit (BitVec.ofNat 9 n) → f.b = .lit (BitVec.ofNat 9 m) →
      exec (.plop f) s = .next (x.givesPred (fun lt =>
        let p := lt.2.readP s (saltOf lt.1 1 0) n
        let q := lt.2.readP s (saltOf lt.1 2 0) m
        match f.fn.toNat with
        | 0 => p && q
        | 1 => p || q
        | 2 => p != q
        | _ => p && !q) s)) ∧
    (s.Runs 0x41 f x → exec (.pmov f) s = .next (x.givesPred (fun lt => x.a lt 32 != 0) s))

/-- R251, R252, R253. `y` is the value in TY; a register holds it modulo 2 to the register's width. -/
def Obligations.IntegerConversion : Prop :=
  ∀ (s : State) (f : Fields) (x : Issue),
    let ty := f.mods.ty
    let lo : Int := if ty.isSigned then -2 ^ (ty.bits - 1) else 0
    let hi : Int := if ty.isSigned then 2 ^ (ty.bits - 1) - 1 else 2 ^ ty.bits - 1
    let fit := fun (v y : Int) => if f.mods.sat then y = min (max v lo) hi else lo ≤ y ∧ y ≤ hi ∧ (y - v) % 2 ^ ty.bits = 0
    (s.Runs 0x42 f x → ty ∈ [Ty.i8, .i16, .i32, .i64, .n8, .n16, .n32, .n64] →
      ∃ y : Nat × Thread → Int, exec (.cvti f) s = .next (x.gives ty.regBits (fun lt => (y lt % 2 ^ ty.regBits).toNat) s) ∧
        ∀ lt, fit (intValue f.mods.src (x.a lt f.mods.src.regBits)) (y lt)) ∧
    (s.Runs 0x43 f x → ty ∈ [Ty.i32, .n32] →
      ∃ y : Nat × Thread → Int, exec (.idot4 f) s = .next (x.gives 32 (fun lt => (y lt % 2 ^ 32).toNat) s) ∧
        ∀ lt, fit (x.ic lt
          + intValue f.mods.src (x.a lt 32 % 256) * intValue f.mods.src (x.b lt 32 % 256)
          + intValue f.mods.src (x.a lt 32 / 2 ^ 8 % 256) * intValue f.mods.src (x.b lt 32 / 2 ^ 8 % 256)
          + intValue f.mods.src (x.a lt 32 / 2 ^ 16 % 256) * intValue f.mods.src (x.b lt 32 / 2 ^ 16 % 256)
          + intValue f.mods.src (x.a lt 32 / 2 ^ 24 % 256) * intValue f.mods.src (x.b lt 32 / 2 ^ 24 % 256)) (y lt)) ∧
    (s.Runs 0x44 f x → ∃ v, exec (.prmt f) s = .next (x.gives 32 v s) ∧ ∀ lt, v lt < 2 ^ 32 ∧ ∀ k, k < 4 →
      let q := x.b lt 32 / 2 ^ (4 * k) % 16
      let byte := x.a lt 32 / 2 ^ (8 * (q % 4)) % 256
      v lt / 2 ^ (8 * k) % 256 = if q / 4 % 2 = 1 then 0 else if q / 8 = 0 then byte else if 128 ≤ byte then 255 else 0)

/-- R255, R256, R257. A participant is a pair of its ISSUELANE and the thread. The operations of R257 in order of FN: ADD, MIN,
MAX, AND, OR, XOR, each with its identity. -/
def Obligations.CrossLane : Prop :=
  ∀ (s : State) (f : Fields) (x : Issue),
    let w := f.mods.ty.bits
    let p := fun (n : Fin 7) (lt : Nat × Thread) => lt.2.readP s (saltOf lt.1 1 0) n
    (s.Runs 0x48 f x → f.mods.ty ∈ [Ty.b32, .b64] → f.fn.toNat < 4 →
      exec (.shfl f) s = .next (x.gives w (fun lt =>
        let n := x.b lt 32
        let j : Int := match f.fn.toNat with
          | 0 => (n % 32 : Nat)
          | 1 => (lt.1 : Int) - n
          | 2 => (lt.1 : Int) + n
          | _ => (lt.1 ^^^ (n % 32) : Nat)
        match x.parts.find? fun o => (o.1 : Int) = j with
        | some o => x.a o w
        | none => x.a lt w) s)) ∧
    (∀ n : Fin 7, s.Runs 0x49 f x → f.fn.toNat < 3 → f.a = .lit (BitVec.ofNat 9 n) →
      exec (.vote f) s = .next (x.givesPred (fun _ => match f.fn.toNat with
        | 0 => decide (∀ o ∈ x.parts, p n o = true)
        | 1 => decide (∃ o ∈ x.parts, p n o = true)
        | _ => decide ((∀ o ∈ x.parts, p n o = true) ∨ ∀ o ∈ x.parts, p n o = false)) s)) ∧
    (∀ n : Fin 7, s.Runs 0x4A f x → f.a = .lit (BitVec.ofNat 9 n) →
      exec (.ballot f) s = .next (x.gives 32 (fun _ => ((x.parts.filter (p n)).map fun o => 2 ^ o.1).sum) s)) ∧
    (s.Runs 0x4D f x → f.mods.ty ∈ [Ty.b32, .b64] →
      exec (.matchOp f) s = .next (x.gives 32 (fun lt =>
        ((x.parts.filter fun o => x.a o w == x.a lt w).map fun o => 2 ^ o.1).sum) s)) ∧
    (s.Runs 0x4E f x → exec (.elect f) s = .next (x.givesPred (fun lt => decide (∀ o ∈ x.parts, lt.1 ≤ o.1)) s)) ∧
    (f.mods.ty ∈ [Ty.i32, .n32, .i64, .n64, .b32, .b64] → f.fn.toNat < 6 →
      let ty := f.mods.ty
      let w := ty.bits
      let fold := fun (l : List (Nat × Thread)) =>
        let vs := l.map fun o => x.a o w
        let is := vs.map (intValue ty)
        let lo : Int := if ty.isSigned then -2 ^ (w - 1) else 0
        let hi : Int := if ty.isSigned then 2 ^ (w - 1) - 1 else 2 ^ w - 1
        match f.fn.toNat with
        | 0 => vs.sum % 2 ^ w
        | 1 => (is.foldl min hi % 2 ^ w).toNat
        | 2 => (is.foldl max lo % 2 ^ w).toNat
        | 3 => vs.foldl (· &&& ·) (2 ^ w - 1)
        | 4 => vs.foldl (· ||| ·) 0
        | _ => vs.foldl (· ^^^ ·) 0
      (s.Runs 0x4B f x → exec (.wreduce f) s = .next (x.gives w (fun _ => fold x.parts) s)) ∧
      (s.Runs 0x4C f x → exec (.wscan f) s = .next (x.gives w (fun lt =>
        fold (x.parts.filter fun o => if f.mods.bit then decide (o.1 < lt.1) else decide (o.1 ≤ lt.1))) s)))

/-- R261, R262. `x.fa`, `x.fb`, `x.fc` are the values of the operands in TY; `FVal.add`, `mul` and `scale` are exact. -/
def Obligations.FloatArithmetic : Prop :=
  ∀ (s : State) (f : Fields) (x : Issue), f.mods.ty ∈ [Ty.f64, .f32, .f16, .bf16] →
    let m := f.mods
    let rounds := fun (e : Nat × Thread → FVal) =>
      Host.Outcome.next (x.gives m.ty.regBits (fun lt => (e lt).round m.ty m.rnd m.sat) s)
    (s.Runs 0x60 f x → exec (.fadd f) s = rounds fun lt => (x.fa lt).add m.rnd (x.fb lt)) ∧
    (s.Runs 0x61 f x → exec (.fsub f) s = rounds fun lt => (x.fa lt).add m.rnd (x.fb lt).neg) ∧
    (s.Runs 0x62 f x → exec (.fmul f) s = rounds fun lt => (x.fa lt).mul (x.fb lt)) ∧
    (s.Runs 0x63 f x → exec (.fma f) s = rounds fun lt => ((x.fa lt).mul (x.fb lt)).add m.rnd (x.fc lt)) ∧
    (s.Runs 0x64 f x → exec (.fmin f) s = rounds fun lt => (x.fa lt).minNum (x.fb lt)) ∧
    (s.Runs 0x65 f x → exec (.fmax f) s = rounds fun lt => (x.fa lt).maxNum (x.fb lt)) ∧
    (s.Runs 0x68 f x → exec (.fscale f) s = rounds fun lt => (x.fa lt).scale (BitVec.ofNat 32 (x.b lt 32)).toInt) ∧
    (s.Runs 0x69 f x → exec (.frnd f) s = rounds fun lt => frndOf m.rnd (x.fa lt))

/-- R263: conditions in order of FN: EQ, NE, LT, LE, GT, GE, UN, ORD; signs CPY, NEG, ABS, XS. -/
def Obligations.FloatCompareClassifySign : Prop :=
  ∀ (s : State) (f : Fields) (x : Issue), f.mods.ty ∈ [Ty.f64, .f32, .f16, .bf16] →
    let ty := f.mods.ty
    let nan := fun lt => (x.fa lt).isNan || (x.fb lt).isNan
    let A := fun lt => x.fbits 1 lt f.a ty
    let B := fun lt => x.fbits 2 lt f.b ty
    (s.Runs 0x66 f x → exec (.fcmp f) s = .next (x.givesPred (fun lt => match f.fn.toNat with
      | 0 => !nan lt && (x.fa lt).eq (x.fb lt)
      | 1 => nan lt || !(x.fa lt).eq (x.fb lt)
      | 2 => !nan lt && (x.fa lt).lt (x.fb lt)
      | 3 => !nan lt && ((x.fa lt).lt (x.fb lt) || (x.fa lt).eq (x.fb lt))
      | 4 => !nan lt && (x.fb lt).lt (x.fa lt)
      | 5 => !nan lt && ((x.fb lt).lt (x.fa lt) || (x.fa lt).eq (x.fb lt))
      | 6 => nan lt
      | _ => !nan lt) s)) ∧
    (s.Runs 0x67 f x → exec (.fclass f) s = .next (x.gives 32 (fun lt => 2 ^ fclassBit ty (x.fa lt)) s)) ∧
    (s.Runs 0x6A f x → f.fn.toNat < 4 → ∃ v, exec (.fsgn f) s = .next (x.gives ty.regBits v s) ∧ ∀ lt,
      (((x.fa lt).isNan = true ∨ (f.fn.toNat = 0 ∨ f.fn.toNat = 3) ∧ (x.fb lt).isNan = true) → v lt = nanResult ty) ∧
      (((x.fa lt).isNan = false ∧ (f.fn.toNat = 1 ∨ f.fn.toNat = 2 ∨ (x.fb lt).isNan = false)) →
        v lt % 2 ^ (ty.bits - 1) = A lt % 2 ^ (ty.bits - 1) ∧ v lt < 2 ^ ty.bits ∧
        (v lt).testBit (ty.bits - 1) = match f.fn.toNat with
          | 0 => (B lt).testBit (ty.bits - 1)
          | 1 => !(A lt).testBit (ty.bits - 1)
          | 2 => false
          | _ => (A lt).testBit (ty.bits - 1) != (B lt).testBit (ty.bits - 1)))

/-- R264. `x.packed` reads a packed operand, `element` one element of it. -/
def Obligations.PackedAndDot : Prop :=
  ∀ (s : State) (f : Fields) (x : Issue),
    let m := f.mods
    let halves := fun (e : FVal → FVal → FVal → FVal) => Host.Outcome.next (x.gives 32 (fun lt =>
      let h := fun k => (e (element m.ty (x.packed 1 lt f.a m.ty) k) (element m.ty (x.packed 2 lt f.b m.ty) k)
        (element m.ty (x.packed 3 lt f.c m.ty) k)).round m.ty m.rnd m.sat
      h 0 + 2 ^ 16 * h 1) s)
    let t := Src2.ty m.src2
    let term := fun lt k => (element t (x.packed 1 lt f.a t) k).mul (element t (x.packed 2 lt f.b t) k)
    let addend := fun lt => FVal.decode .f32 (x.fbits 3 lt f.c .f32)
    (s.Runs 0x6B f x → exec (.hfma2 f) s = halves fun a b c => (a.mul b).add m.rnd c) ∧
    (s.Runs 0x6C f x → exec (.hadd2 f) s = halves fun a b _ => a.add m.rnd b) ∧
    (s.Runs 0x6D f x → exec (.hmul2 f) s = halves fun a b _ => a.mul b) ∧
    (s.Runs 0x6E f x → exec (.fdot2 f) s = .next (x.gives 32 (fun lt =>
      (sumTerms m.rnd [term lt 0, term lt 1, addend lt]).round .f32 m.rnd m.sat) s)) ∧
    (s.Runs 0x6F f x → exec (.fdot4 f) s = .next (x.gives 32 (fun lt =>
      (sumTerms m.rnd [term lt 0, term lt 1, term lt 2, term lt 3, addend lt]).round .f32 m.rnd m.sat) s))

/-- R265: the result depends on the opcode, TY, RND, .SAT and the operand's bits alone. R194's table, by codes, its infinities
where .SAT is not given (log 34 has them under .SAT); the exact results of R193; and its bounds: the seeds' on numbers, the others'
as `sfuBound` has them of the approximation `sfuApprox` of the exact result (log 8 says how near it is). -/
def Obligations.SpecialFunctions : Prop :=
  ∀ (s : State) (f : Fields) (x : Issue),
    let m := f.mods
    let answers := fun op (o : Host.Outcome State Fault Refusal) => s.Runs op f x →
      o = .next (x.gives 32 (fun lt => sfuResult op m.ty m.rnd m.sat (x.fbits 1 lt f.a m.ty)) s)
    answers 0x70 (exec (.rcps f) s) ∧ answers 0x71 (exec (.rsqs f) s) ∧ answers 0x72 (exec (.rcp f) s) ∧
    answers 0x73 (exec (.rsq f) s) ∧ answers 0x74 (exec (.sqrt f) s) ∧ answers 0x75 (exec (.exp2 f) s) ∧
    answers 0x76 (exec (.log2 f) s) ∧ answers 0x77 (exec (.sinp f) s) ∧ answers 0x78 (exec (.cosp f) s) ∧
    answers 0x79 (exec (.tanh f) s) ∧
    (m.ty ∈ [Ty.f32, .f16] →
      let ops := [0x70, 0x71, 0x72, 0x73, 0x74, 0x75, 0x76, 0x77, 0x78, 0x79]
      let neg := 2 ^ (m.ty.bits - 1)
      let inf := if m.ty = .f32 then 0x7F800000 else 0x7C00
      let one := if m.ty = .f32 then 0x3F800000 else 0x3C00
      let nan := if m.ty = .f32 then 0x7FC00000 else 0x7E00
      let res := fun op a => sfuResult op m.ty m.rnd m.sat a
      let num := fun c => (FVal.decode m.ty c).toRat
      let special : List (Nat × List Nat) := [
        (0x70, [inf, neg + inf, 0, neg]), (0x72, [inf, neg + inf, 0, neg]),
        (0x71, [inf, neg + inf, 0, nan]), (0x73, [inf, neg + inf, 0, nan]),
        (0x74, [0, neg, inf, nan]), (0x75, [one, one, inf, 0]), (0x76, [neg + inf, neg + inf, inf, nan]),
        (0x77, [0, neg, nan, nan]), (0x78, [one, one, nan, nan]), (0x79, [0, neg, one, neg + one])]
      (∀ op ∈ ops, ∀ a, (FVal.decode m.ty a).isNan = true → res op a = nan) ∧
      (∀ row ∈ special, ∀ p ∈ [0, neg, inf, neg + inf].zip row.2, m.sat = false ∨ p.2 % neg ≠ inf → res row.1 p.1 = p.2) ∧
      (∀ a k e, FVal.decode m.ty a = .fin true k e → k ≠ 0 → ∀ op ∈ [0x71, 0x73, 0x74, 0x76], res op a = nan) ∧
      (∀ a n k e, FVal.decode m.ty a = .fin n k e → k ≠ 0 →
        (∀ i : Int, num a = (i : Rat) →
          (1 - (m.ty.fmt.bias : Int) - m.ty.fmt.mbits ≤ i → i ≤ m.ty.fmt.bias → num (res 0x75 a) = (2 : Rat) ^ i) ∧
          res 0x77 a = (if n then neg else 0) ∧ res 0x78 a = (if i % 2 = 0 then one else neg + one)) ∧
        (∀ i : Int, 2 * num a = (i : Rat) → i % 2 = 1 →
          res 0x77 a = (if i % 4 = 1 then one else neg + one) ∧ res 0x78 a = 0) ∧
        (∀ i : Int, n = false → num a = (2 : Rat) ^ i → num (res 0x76 a) = (i : Rat)) ∧
        (∀ c, num a = num c ^ 2 → 0 ≤ num c → n = false → num (res 0x74 a) = num c) ∧
        (81 ≤ num a ^ 2 → res 0x79 a = if n then neg + one else one) ∧
        (∀ op ∈ ops, sfuExact op (.fin n k e) = none →
          let x := sfuApprox op n k e
          if x.abs.lt (leastMagnitude m.ty) || (FVal.decode m.ty m.ty.fmt.maxCode).lt x.abs then res op a = x.round m.ty m.rnd m.sat
          else if m.ty = .f32 then sfuBound op (.decode .f32 (res op a)) (.fin n k e) x = true
          else ∀ b j d, x = .fin b j d → nearBy (.decode .f16 (res op a)) x 1 (ulpExp .f16 j d) = true) ∧
        (m.ty = .f32 →
          (1 ≤ (num a * num 0x7F7FFFFF) ^ 2 →
            -1 / 2 ^ 14 < num (res 0x70 a) * num a - 1 ∧ num (res 0x70 a) * num a - 1 < 1 / 2 ^ 14) ∧
          (n = false → 0 < num (res 0x71 a) ∧ (1 - 1 / 2 ^ 14) ^ 2 < num (res 0x71 a) ^ 2 * num a ∧
            num (res 0x71 a) ^ 2 * num a < (1 + 1 / 2 ^ 14) ^ 2))))

/-- R266 to R269. FN[1:0] is the rounding mode and FN[2] saturation. -/
def Obligations.Conversions : Prop :=
  ∀ (s : State) (f : Fields) (x : Issue),
    let ty := f.mods.ty
    let src := f.mods.src
    let r := match f.fn.toNat % 4 with | 0 => Rnd.rn | 1 => .rz | 2 => .ru | _ => .rd
    let sat := decide (4 ≤ f.fn.toNat)
    (s.Runs 0x7A f x → exec (.cvtf f) s = .next (x.gives ty.regBits (fun lt =>
      (FVal.decode src (x.fbits 1 lt f.a src)).round ty r sat) s)) ∧
    (s.Runs 0x7B f x → ty ∈ [Ty.i8, .i16, .i32, .i64, .n8, .n16, .n32, .n64] →
      exec (.cvtfi f) s = .next (x.gives ty.regBits (fun lt =>
        ((FVal.decode src (x.fbits 1 lt f.a src)).toIntTy ty r % 2 ^ ty.regBits).toNat) s)) ∧
    (s.Runs 0x7C f x → exec (.cvtif f) s = .next (x.gives ty.regBits (fun lt =>
      (FVal.ofInt (intValue src (x.a lt src.regBits))).round ty r sat) s)) ∧
    (s.Runs 0x7D f x → ty = .f16 ∨ ty = .bf16 → exec (.pack f) s = .next (x.gives 32 (fun lt =>
      (FVal.decode .f32 (x.fbits 1 lt f.a .f32)).round ty r sat
        + 2 ^ 16 * (FVal.decode .f32 (x.fbits 2 lt f.b .f32)).round ty r sat) s)) ∧
    (s.Runs 0x7D f x → ty = .e4m3 ∨ ty = .e5m2 ∨ ty = .ps8 → exec (.pack f) s = .next (x.gives 32 (fun lt =>
      let one := fun v => (FVal.decode .f32 v).round ty r sat
      one (x.a lt 64 % 2 ^ 32) + 2 ^ 8 * one (x.a lt 64 / 2 ^ 32 % 2 ^ 32)
        + 2 ^ 16 * one (x.b lt 64 % 2 ^ 32) + 2 ^ 24 * one (x.b lt 64 / 2 ^ 32 % 2 ^ 32)) s)) ∧
    (s.Runs 0x7D f x → ty = .e2m1 → ∃ v, exec (.pack f) s = .next (x.gives 32 v s) ∧ ∀ lt, v lt =
      ((List.range 8).map fun k => 16 ^ k * (FVal.decode .f32 (if k < 4 then x.a lt 128 / 2 ^ (32 * k) % 2 ^ 32
        else x.b lt 128 / 2 ^ (32 * (k - 4)) % 2 ^ 32)).round ty r sat).sum) ∧
    (s.Runs 0x7E f x → src = .f16 ∨ src = .bf16 → exec (.unpack f) s = .next (x.gives 64 (fun lt =>
      let a := x.packed 1 lt f.a src
      (FVal.decode src (a % 2 ^ 16)).round .f32 .rn false
        + 2 ^ 32 * (FVal.decode src (a / 2 ^ 16 % 2 ^ 16)).round .f32 .rn false) s)) ∧
    (s.Runs 0x7E f x → src = .e4m3 ∨ src = .e5m2 ∨ src = .ps8 → ∃ v, exec (.unpack f) s = .next (x.gives 128 v s) ∧
      ∀ lt, v lt = ((List.range 4).map fun k =>
        2 ^ (32 * k) * (FVal.decode src (x.packed 1 lt f.a src / 2 ^ (8 * k) % 2 ^ 8)).round .f32 .rn false).sum) ∧
    (s.Runs 0x7E f x → src = .e2m1 → ∃ v, exec (.unpack f) s = .next (x.gives 128 v s) ∧
      ∀ lt, v lt = ((List.range 4).map fun k => 2 ^ (32 * k) *
        (FVal.decode src (x.packed 1 lt f.a src / 2 ^ (4 * (4 * (x.b lt 32 % 2) + k)) % 2 ^ 4)).round .f32 .rn false).sum) ∧
    (s.Runs 0x7F f x → exec (.cvttd f) s = .next (x.gives 32 (fun lt =>
      if x.b lt 32 % 256 = 255 then nanResult ty
      else ((FVal.decode .f32 (x.fbits 1 lt f.a .f32)).scale (127 - (x.b lt 32 % 256 : Nat))).round ty r sat) s))

/-- R179 to R184, R189. ROUND of a representable value is that value; of any number, the value of the format that the mode chooses,
and beyond the largest the overflow result. The operations are those of the numbers; rounding to an integer type clamps. -/
def Obligations.ExactValuesKeepTheirCode : Prop :=
  let formats := [Ty.f64, .f32, .f16, .bf16, .e4m3, .e5m2, .e2m1]
  (∀ ty ∈ formats, ∀ (c : Nat) (r : Rnd) (sat : Bool), c < 2 ^ ty.bits →
    (∃ n m e, FVal.decode ty c = .fin n m e) → (FVal.decode ty c).round ty r sat = c) ∧
  (∀ ty ∈ formats, ∀ (neg : Bool) (m : Nat) (e : Int) (r : Rnd) (sat : Bool),
    let v := (FVal.fin neg m e).toRat
    let z := (FVal.fin neg m e).round ty r sat
    let num := fun c => (FVal.decode ty c).toRat
    let finite := fun c => c < 2 ^ ty.bits ∧ ∃ n k d, FVal.decode ty c = .fin n k d
    let y := num z
    let top := ty.fmt.maxCode
    let last := (if neg then 2 ^ (ty.bits - 1) else 0) + top
    let beyond := if sat = true ∨ ty = .e2m1 then last else if ty = .e4m3 then 0x7F else last + 1
    (v ^ 2 ≤ num top ^ 2 → finite z ∧ z.testBit (ty.bits - 1) = neg ∧ match r with
      | .rn => ∀ c, finite c → (y - v) ^ 2 ≤ (num c - v) ^ 2 ∧ ((y - v) ^ 2 = (num c - v) ^ 2 → num c ≠ y → z % 2 = 0)
      | .rz => y ^ 2 ≤ v ^ 2 ∧ ∀ c, finite c → num c ^ 2 ≤ v ^ 2 → num c ^ 2 ≤ y ^ 2
      | .ru => v ≤ y ∧ ∀ c, finite c → v ≤ num c → y ≤ num c
      | .rd => y ≤ v ∧ ∀ c, finite c → num c ≤ v → num c ≤ y) ∧
    (num top ^ 2 < v ^ 2 → z = match r with
      | .rn =>
        let excess := 2 * ((if neg then -v else v) - num top)
        let step := num top - num (top - 1)
        if excess < step ∨ excess = step ∧ top % 2 = 0 then last else beyond
      | .rz => last
      | .ru => if neg then last else beyond
      | .rd => if neg then beyond else last)) ∧
  (∀ (a b : Bool) (m n : Nat) (e f i : Int) (r : Rnd),
    let x := FVal.fin a m e
    let y := FVal.fin b n f
    let is := fun (z : FVal) (v : Rat) => (∃ c k d, z = .fin c k d) ∧ z.toRat = v
    is (x.add r y) (x.toRat + y.toRat) ∧ is (x.mul y) (x.toRat * y.toRat) ∧ is x.neg (-x.toRat) ∧ is (x.scale i) (x.toRat * 2 ^ i) ∧
    is (FVal.ofInt i) i ∧ is (x.minNum y) (min x.toRat y.toRat) ∧ is (x.maxNum y) (max x.toRat y.toRat) ∧
    x.lt y = decide (x.toRat < y.toRat) ∧ (x.mul y).negative = (a != b) ∧
    (x.toRat + y.toRat = 0 → (x.add r y).negative = if m = 0 ∧ n = 0 ∧ a = b then a else r == .rd) ∧
    (x.toRat = y.toRat → (x.minNum y).negative = (a || b) ∧ (x.maxNum y).negative = (a && b)) ∧
    (FVal.inf a).add r y = .inf a ∧ x.add r (.inf b) = .inf b ∧
    (FVal.inf a).add r (.inf b) = (if a = b then .inf a else .nan) ∧
    (FVal.inf a).mul y = (if n = 0 then .nan else .inf (a != b)) ∧ x.mul (.inf b) = (if m = 0 then .nan else .inf (a != b)) ∧
    (FVal.inf a).mul (.inf b) = .inf (a != b)) ∧
  (∀ (x : FVal) (r : Rnd), FVal.nan.add r x = .nan ∧ x.add r .nan = .nan ∧ FVal.nan.mul x = .nan ∧ x.mul .nan = .nan ∧
    FVal.nan.minNum x = x ∧ x.minNum .nan = x ∧ FVal.nan.maxNum x = x ∧ x.maxNum .nan = x) ∧
  ∀ ty ∈ [Ty.i8, .i16, .i32, .i64, .n8, .n16, .n32, .n64], ∀ (neg : Bool) (m : Nat) (e : Int) (r : Rnd), -2000 ≤ e →
    let v := (FVal.fin neg m e).toRat
    let lo : Int := if ty.isSigned then -2 ^ (ty.bits - 1) else 0
    let hi : Int := if ty.isSigned then 2 ^ (ty.bits - 1) - 1 else 2 ^ ty.bits - 1
    FVal.nan.toIntTy ty r = 0 ∧ (FVal.inf neg).toIntTy ty r = (if neg then lo else hi) ∧
    ∃ k : Int, (FVal.fin neg m e).toIntTy ty r = max lo (min k hi) ∧ match r with
      | .rn => ∀ j : Int, (k - v) ^ 2 ≤ (j - v) ^ 2 ∧ ((k - v) ^ 2 = (j - v) ^ 2 → j ≠ k → k % 2 = 0)
      | .rz => 0 ≤ k * v ∧ (k : Rat) ^ 2 ≤ v ^ 2 ∧ ∀ j : Int, (j : Rat) ^ 2 ≤ v ^ 2 → (j : Rat) ^ 2 ≤ (k : Rat) ^ 2
      | .ru => v ≤ k ∧ k < v + 1
      | .rd => k ≤ v ∧ v < k + 1

/-- R198, R200, R202, R207. A thread that a wave held twice would keep the later result. -/
def Obligations.ResultsReachRegisters : Prop :=
  ∀ (s : State) (op : Nat) (f : Fields) (x : Issue) (w : Nat), s.Runs op f x → fixedLatency op = true → f.marker = false →
    w ∈ [32, 64, 128] →
    let mine := fun (tid : Nat) => (x.parts.filter fun lt => lt.2.tid == tid).getLast?
    (∀ (val : Nat × Thread → Nat) (i : BitVec 9) (tid k : Nat), f.d = .v i → k < w / 32 → i.toNat + k < x.team.vregs →
      (x.gives w val s).vreg x.team.uid tid (i.toNat + k) = match mine tid with
        | some lt => some (BitVec.ofNat 32 (val lt / 2 ^ (32 * k)))
        | none => s.vreg x.team.uid tid (i.toNat + k)) ∧
    (∀ (val : Nat × Thread → Nat) (j : BitVec 7), f.d = .s j →
      (x.gives w val s).sreg x.team.uid j.toNat = match x.parts.head? with
        | some lt => some (BitVec.ofNat 64 (if w = 32 then val lt % 2 ^ 32 else val lt))
        | none => s.sreg x.team.uid j.toNat) ∧
    (∀ (val : Nat × Thread → Bool) (n : Fin 7) (tid : Nat), f.d = .lit (BitVec.ofNat 9 n) →
      (x.givesPred val s).preg x.team.uid tid n = match mine tid with
        | some lt => some (val lt)
        | none => s.preg x.team.uid tid n)

/-- The frame of opcodes 0x20 to 0x7F. A result occupies as many V registers as its form's D (R198). -/
def Obligations.ComputingTouchesOnlyRegisters : Prop :=
  ∀ (i : Instr) (op : Nat) (f : Fields) (s : State) (x : Issue), i.opFields = some (op, f) → 0x20 ≤ op → op < 0x80 →
    i.wf = true → s.Runs op f x →
    ∃ t, exec i s = .next t ∧
      t = { s with teams := t.teams, waves := t.waves, seq := t.seq } ∧
      (∀ a, Memory.read t.mem a = Memory.read s.mem a) ∧
      (∀ uid, uid ≠ x.team.uid → t.team? uid = s.team? uid) ∧
      (∃ tm, t.team? x.team.uid = some tm ∧ tm = { x.team with s := tm.s, threads := tm.threads }) ∧
      (∀ tid, x.wave.lanes.all (fun l => l.2 != tid) = true → t.thread? x.team.uid tid = s.thread? x.team.uid tid) ∧
      (∀ tid th, s.thread? x.team.uid tid = some th → ∃ th', t.thread? x.team.uid tid = some th' ∧
        th' = { th with v := th'.v, p := th'.p, pend := th'.pend, pc := th'.pc, released := th'.released, hcount := th'.hcount,
                         iterReg := th'.iterReg } ∧
        (f.marker = false → th'.iterReg = th.iterReg ∧
          (∀ r, (∀ (k : BitVec 9) (fm : Form), f.d = .v k → form op = some fm →
              r < k.toNat ∨ k.toNat + vregsOf (fm.specs f.fn.toNat f.mods (f.c != .unused)).d ≤ r) → Sparse.get 0 th'.v r = Sparse.get 0 th.v r) ∧
          (∀ n : Fin 7, f.d ≠ .lit (BitVec.ofNat 9 n) → th'.p.getLsbD n = th.p.getLsbD n))) ∧
      (f.marker = false → ∀ r, (∀ k : BitVec 7, f.d = .s k → r ≠ k.toNat) → t.sreg x.team.uid r = s.sreg x.team.uid r)

/-- R159: what `Issue.advance` with no other next address does, and all that it does. That HCOUNT counts every lane, one whose guard is
false included, is the model's reading (log 36), and so is that every wave that has issued is the youngest (log 75), which R367
asks of a YIELD. -/
def Obligations.WaveGoesOn : Prop :=
  (∀ (s : State) (op : Nat) (f : Fields) (x : Issue), s.Runs op f x → f.marker = false →
    let t := x.advance [] s
    t = { s with teams := t.teams, waves := t.waves, seq := t.seq } ∧
    (∃ w, t.wave? x.wave.wid = some w ∧ w.lanes = x.wave.lanes ∧ w.quadrant = x.wave.quadrant ∧ w.uid = x.wave.uid) ∧
    t.waves.length = s.waves.length ∧ (∀ w ∈ s.waves, w.wid ≠ x.wave.wid → w ∈ t.waves) ∧
    (∀ uid, uid ≠ x.team.uid → t.team? uid = s.team? uid) ∧
    (∃ tm, t.team? x.team.uid = some tm ∧ tm = { x.team with threads := tm.threads }) ∧
    (∀ tid, tid ∉ x.wave.tids → t.thread? x.team.uid tid = s.thread? x.team.uid tid) ∧
    (∀ l ∈ x.wave.lanes, ∀ th, s.thread? x.team.uid l.2 = some th → t.thread? x.team.uid l.2 = some { th with
      pc := x.pc + BitVec.ofNat 64 x.len, released := false, hcount := if th.handler then th.hcount + 1 else th.hcount })) ∧
  ∀ (s : State) (f : Fields) (x : Issue),
    (s.Runs 0x00 f x → exec (.nop f) s = .next (x.advance [] s)) ∧
    (s.Runs 0x09 f x → exec (.yield f) s = .next (x.advance [] s) ∧
      ∃ w, (x.advance [] s).wave? x.wave.wid = some w ∧ w.age = s.seq)

/-- R206, R207. Which of the two values a read before that sees is free (log 6). -/
def Obligations.OutstandingResults : Prop :=
  (∀ (s : State) (op : Nat) (f : Fields) (x : Issue) (w : Nat) (val : Nat × Thread → Nat) (i : BitVec 9),
    s.Runs op f x → fixedLatency op = false → f.marker = false → f.d = .v i →
    (∀ tid r, (x.gives w val s).vreg x.team.uid tid r = s.vreg x.team.uid tid r) ∧
    (∀ lt ∈ x.parts, ∃ p ∈ (x.gives w val s).pending x.team.uid lt.2.tid,
      p.parts = 0 ∧ p.writes = operandWrites f.d w (val lt))) ∧
  (∀ (s : State) (uid tid n : Nat) (th : Thread) (p : Pend) (i val : Nat),
    s.thread? uid tid = some th → th.pend[n]? = some p → p.parts = 0 → p.writes = [⟨.v i, val⟩] →
    (∀ t, s.team? uid = some t → i < t.vregs) →
    ∃ t, exec (.resultWriteback uid tid n) s = .next t ∧ t.vreg uid tid i = some (BitVec.ofNat 32 val) ∧
      (∀ r, r ≠ i → t.vreg uid tid r = s.vreg uid tid r) ∧ (∀ q ∈ t.pending uid tid, q.id ≠ p.id) ∧ t.mem = s.mem) ∧
  (∀ (s : State) (op : Nat) (f : Fields) (x : Issue), s.Runs op f x → f.marker = true → x.team.unbound x.wave.tids = [] →
    ∀ l ∈ x.wave.lanes, (x.advance [] s).pending x.team.uid l.2 = []) ∧
  (∀ (s : State) (op : Nat) (f : Fields) (x : Issue), s.Runs op f x → f.marker = true →
    x.team.unbound x.wave.tids ≠ [] → x.wave.park = none →
    ∃ w p, (x.advance [] s).wave? x.wave.wid = some w ∧ w.park = some p ∧ p.mark = true ∧
      p.ops = x.team.unbound x.wave.tids ∧ (x.advance [] s).mayIssue w = false)

/-- R239, R157. A CALL is 12 bytes long and a CALLX 8. REG_RANGE of a call at depth 24 is cause 0x03 with KIND 10 (R215). -/
def Obligations.Branches : Prop :=
  ∀ (s : State) (f : Fields) (x : Issue),
    let goes := fun (o : Host.Outcome State Fault Refusal) (len : Nat) (target : Nat × Thread → DWord)
        (stack : Nat × Thread → List DWord) =>
      ∃ t, o = .next t ∧ t.mem = s.mem ∧
        (∀ l ∈ x.wave.lanes, ∀ th, s.thread? x.team.uid l.2 = some th → ∃ th', t.thread? x.team.uid l.2 = some th' ∧
          match x.parts.find? (fun lt => lt.2.tid == l.2) with
          | some lt => th'.pc = target lt ∧ th'.stack = stack lt
          | none => th'.pc = x.pc + BitVec.ofNat 64 len ∧ th'.stack = th.stack) ∧
        (∀ l ∈ x.wave.lanes, ∃ w ∈ t.waves, w.uid = x.wave.uid ∧ l ∈ w.lanes) ∧
        (∀ w ∈ t.waves, w ∉ s.waves → ∀ a ∈ w.lanes, ∀ b ∈ w.lanes,
          (s.thread? x.team.uid a.2).isSome = true → (s.thread? x.team.uid b.2).isSome = true →
          (t.thread? x.team.uid a.2).map (·.pc) = (t.thread? x.team.uid b.2).map (·.pc))
    let rel := x.pc + (f.x21.signExtend 64) * 4
    let abs := fun (lt : Nat × Thread) => BitVec.ofNat 64 (x.a lt 64) &&& ~~~(3 : DWord)
    (s.Runs 0x01 f x → goes (exec (.bra f) s) 12 (fun _ => rel) fun lt => lt.2.stack) ∧
    (s.Runs 0x02 f x → goes (exec (.brx f) s) 8 abs fun lt => lt.2.stack) ∧
    (s.Runs 0x03 f x → (∀ lt ∈ x.parts, lt.2.stack.length < 24) →
      goes (exec (.call f) s) 12 (fun _ => rel) fun lt => (x.pc + 12) :: lt.2.stack) ∧
    (s.Runs 0x04 f x → (∀ lt ∈ x.parts, lt.2.stack.length < 24) →
      goes (exec (.callx f) s) 8 abs fun lt => (x.pc + 8) :: lt.2.stack) ∧
    ((∃ lt ∈ x.parts, 24 ≤ lt.2.stack.length) →
      let traps := fun (o : Host.Outcome State Fault Refusal) => o = .next (s.trapWave x.wave.wid x.pc 0x03
        (x.parts.filterMap fun lt => if 24 ≤ lt.2.stack.length then some (lt.2.tid, 2 ^ 63 + 24) else none))
      (s.Runs 0x03 f x → traps (exec (.call f) s)) ∧ (s.Runs 0x04 f x → traps (exec (.callx f) s))) ∧
    (s.Runs 0x05 f x → (∀ lt ∈ x.parts, lt.2.stack ≠ []) →
      goes (exec (.ret f) s) 8 (fun lt => lt.2.stack.headD 0) fun lt => lt.2.stack.tail)

/-- R240, R161, R162. Of two lanes that held one thread, the later would count. -/
def Obligations.LeavingToWait : Prop :=
  (∀ (s : State) (f : Fields) (x : Issue),
    let out := fun (t : State) (lt : Nat × Thread) (how : Thread → Prop) =>
      t.noWaveHolds x.wave.wid lt.2.tid ∧ ∃ th, t.thread? x.team.uid lt.2.tid = some th ∧ how th
    (s.Runs 0x08 f x → ∃ t, exec (.reconv f) s = .next t ∧ t.mem = s.mem ∧
      ∀ lt ∈ x.parts, out t lt fun th => th.wait? = some .reconv ∧ th.pc = lt.2.pc ∧ th.v = lt.2.v) ∧
    (s.Runs 0x0D f x → ∃ t, exec (.pause f) s = .next t ∧ t.mem = s.mem ∧
      ∀ tid lt, x.last? (fun l => l.2.tid == tid && x.a l 32 != 0) = some lt → out t lt fun th =>
        th.wait? = some (.pause (s.now x.team.die + min (x.a lt 32) 65535)) ∧ th.pc = lt.2.pc) ∧
    (s.Runs 0x0D f x → (∀ lt ∈ x.parts, x.a lt 32 = 0) → exec (.pause f) s = .next (x.advance [] s)) ∧
    (s.Runs 0x07 f x → f.marker = false → ∃ t, exec (.reform f) s = .next t ∧ t.mem = s.mem ∧
      ∀ lt ∈ x.parts, out t lt fun th =>
        th.filing = some (lt.2.pc + 8, s.now x.team.die) ∧ th.pc = lt.2.pc + 8 ∧ th.wait? = none) ∧
    (s.Runs 0x07 f x → f.marker = true → x.team.unbound x.wave.tids = [] → ∃ t, exec (.reform f) s = .next t ∧
      ∀ lt ∈ x.parts, out t lt fun th => th.filing = some (lt.2.pc + 8, s.now x.team.die) ∧ th.pend = [])) ∧
  (∀ (s : State) (uid tid stop : Nat) (tm : Team) (th : Thread) (b : Blocked), s.team? uid = some tm → tm.status = .resident →
    tm.thread? tid = some th → th.blocked = some b → b.wait = .pause stop →
    (stop ≤ s.now tm.die → b.marker = none → ∃ t th', exec (.pauseExpire uid tid) s = .next t ∧ t.mem = s.mem ∧
      t.thread? uid tid = some th' ∧ th'.blocked = none ∧ th'.pc = th.pc + BitVec.ofNat 64 b.len ∧
      th'.filing = some (th'.pc, s.now tm.die) ∧ th'.v = th.v) ∧
    (s.now tm.die < stop → exec (.pauseExpire uid tid) s = .next s)) ∧
  ∀ (s : State) (core uid pc : Nat),
    let due := s.meres.find? fun m => m.core == core && m.uid == uid && m.pc.toNat == pc && s.mereDue m
    (∀ m, due = some m → ∃ t w, exec (.mereageRelease core uid pc) s = .next t ∧ t.mem = s.mem ∧ t.waves = s.waves ++ [w] ∧
      w.uid = uid ∧ w.tids = sortBy id (m.threads.map (·.1)) ∧ ∀ m' ∈ t.meres, m' ∈ s.meres ∧ m' ≠ m) ∧
    (due = none → exec (.mereageRelease core uid pc) s = .next s)

/-- R240, R239 (RET at depth 0), R132 (the release at .PK). -/
def Obligations.Exit : Prop :=
  ∀ (s : State) (f : Fields) (x : Issue), x.released .pk →
    let gone := fun (o : Host.Outcome State Fault Refusal) => ∃ t, o = .next t ∧ t.mem = s.mem ∧ t.msgs = s.msgs ∧
      (∀ lt ∈ x.parts, t.noWaveHolds x.wave.wid lt.2.tid ∧ t.thread? x.team.uid lt.2.tid = none) ∧
      (∀ tid, (x.parts.all fun lt => lt.2.tid != tid) = true → (s.thread? x.team.uid tid).isSome = true →
        (t.thread? x.team.uid tid).isSome = true)
    (s.Runs 0x06 f x → gone (exec (.exit f) s)) ∧
    (s.Runs 0x05 f x → (∀ lt ∈ x.parts, lt.2.stack = []) → gone (exec (.ret f) s))

/-- Checks 6 and 7 of R213, for all instructions: PRIVILEGE is cause 0x0A and REG_RANGE 0x03 (R374). The fields D, A, B, C, E are
numbered 0 to 4 in R215, and the guard slot that an engine command names in X21[20:16] has KIND 01. An instruction that
passes both is not among those that trap by them: a computing, a branching or a handler's instruction changes no TRAPCAUSE. -/
def Obligations.IssueChecksTrap : Prop :=
  (∀ (i : Instr) (op : Nat) (f : Fields) (s : State) (x : Issue) (cause info : Nat),
    i.opFields = some (op, f) → s.issue? op f = some x → x.wave.waiting = false → State.issueErr x.team x.wave op f = some (cause, info) →
    exec i s = .next (s.trapWave x.wave.wid x.pc cause (x.wave.tids.map fun tid => (tid, info)))) ∧
  (∀ (t : Team) (w : Wave) (op : Nat) (f : Fields), op = 0x0E ∨ op = 0x0F → (∃ l ∈ t.active w, l.2.handler = false) →
    State.issueErr t w op f = some (0x0A, 0)) ∧
  (∀ (t : Team) (w : Wave) (op : Nat) (f : Fields) (fm : Form), form op = some fm →
    ¬((op = 0x0E ∨ op = 0x0F) ∧ ∃ l ∈ t.active w, l.2.handler = false) →
    let sp := fm.specs f.fn.toNat f.mods (f.c != .unused)
    let fields : List (FSpec × Operand) := [(sp.d, f.d), (sp.a, f.a), (sp.b, f.b), (sp.c, f.c)] ++
      (match sp.e with | some e => [(e, fieldE f)] | none => [])
    let exceeds := fun (p : FSpec × Operand) => ∃ i : BitVec 9, p.2 = .v i ∧ t.vregs < i.toNat + vregsOf p.1
    let slot := op ∈ [0xA9, 0xAA, 0xAB, 0xAE, 0xC2, 0xC4, 0xC6] ∧ 2 ^ 20 ≤ f.x21.toNat
    let g := f.x21.toNat / 2 ^ 16 % 16
    (∀ k sp (i : BitVec 9), fields[k]? = some (sp, .v i) → t.vregs < i.toNat + vregsOf sp → (∀ q ∈ fields.take k, ¬exceeds q) →
      State.issueErr t w op f = some (0x03, k * 2 ^ 10 + i.toNat)) ∧
    ((∀ q ∈ fields, ¬exceeds q) → slot → t.guards.length ≤ g → State.issueErr t w op f = some (0x03, 2 ^ 62 + g)) ∧
    ((∀ q ∈ fields, ¬exceeds q) → (slot → g < t.guards.length) → State.issueErr t w op f = none)) ∧
  ∀ (i : Instr) (op : Nat) (f : Fields) (s : State) (x : Issue), i.opFields = some (op, f) → s.Runs op f x →
    0x20 ≤ op ∧ op < 0x80 ∨ op ∈ [0x00, 0x01, 0x02, 0x09, 0x0E, 0x0F] →
    ∃ t, exec i s = .next t ∧ ∀ uid tid th, s.thread? uid tid = some th → ∃ th', t.thread? uid tid = some th' ∧
      th'.trapCause = th.trapCause ∧ th'.trapInfo = th.trapInfo ∧ th'.trapPc = th.trapPc ∧ th'.handler = th.handler

/-- R370, R371, R372, R243. `infos` names the threads that raised the cause, each with its TRAPINFO. -/
def Obligations.TakingATrap : Prop :=
  ∀ (s : State) (wid cause : Nat) (pc : DWord) (infos : List (Nat × Nat)) (w : Wave) (tm : Team) (c : Context),
    s.wave? wid = some w → s.team? w.uid = some tm → s.ctx? (s.ctxOf tm) = some c → tm.unbound w.tids = [] → cause < 256 →
    let t := s.trapWave wid pc cause infos
    let nested := ∃ th ∈ tm.threads, th.tid ∈ w.tids ∧ th.handler = true
    (¬nested → c.trapEntry ≠ 0 →
      t.mem = s.mem ∧ t.msgs = s.msgs ∧
      ∀ l ∈ w.lanes, ∀ th, s.thread? w.uid l.2 = some th → ∃ th', t.thread? w.uid l.2 = some th' ∧
        th'.pc = c.trapEntry ∧ th'.trapPc = pc ∧ th'.resumePc = pc ∧ th'.hcount = 0 ∧ th'.handler = true ∧
        th'.trapMask = BitVec.ofNat 32 w.mask ∧ th'.pend = [] ∧
        th'.trapCause.toNat % 256 = cause ∧ th'.trapCause.toNat / 512 = 0 ∧
        th'.trapCause.getLsbD 8 = infos.any (fun r => r.1 == l.2) ∧
        th'.trapInfo = BitVec.ofNat 64 (((infos.find? fun r => r.1 == l.2).map (·.2)).getD 0) ∧
        th'.stack = th.stack ∧ th'.joined = th.joined ∧ th'.held = th.held ∧ th'.sealed = th.sealed) ∧
    (nested ∨ c.trapEntry = 0 → c.dying = false → ∃ c', t.ctx? c.num = some c' ∧ c'.dying = true ∧
      (∃ r, c'.stopRec = some r ∧ r.kind = 2 ∧ r.cause = cause ∧ (r.nested = true ↔ nested)) ∧
      ∀ v ∈ t.waves, v.uid ≠ w.uid)

/-- R241: cause 0x09; the trap's entry is `TakingATrap`. A stopped context's waves do not issue (R375). -/
def Obligations.ProgramTraps : Prop :=
  ∀ (s : State) (f : Fields) (x : Issue),
    (s.Runs 0x0A f x → x.parts ≠ [] → exec (.trap f) s = .next (s.trapWave x.wave.wid x.pc 0x09
      (x.parts.map fun lt => (lt.2.tid, x.a lt 32)))) ∧
    (s.Runs 0x0A f x → x.parts = [] → exec (.trap f) s = .next (x.advance [] s)) ∧
    (s.Runs 0x0C f x → (∀ lt ∈ x.parts, x.a lt 32 ≠ 0) → exec (.assert f) s = .next (x.advance [] s)) ∧
    (s.Runs 0x0C f x → (∃ lt ∈ x.parts, x.a lt 32 = 0) → x.ctx.status ≠ .stopped → ∃ t c, exec (.assert f) s = .next t ∧
      t.ctx? x.grid.ctx = some c ∧ c.status = .stopped ∧ (∃ body, s.tells t ⟨x.ctx.port, x.ctx.host, x.grid.ctx, 0, 0x82, 0, body⟩)) ∧
    (s.Runs 0x0C f x → (∃ lt ∈ x.parts, x.a lt 32 = 0) → x.ctx.status = .stopped → ∃ t c, exec (.assert f) s = .next t ∧
      t.ctx? x.grid.ctx = some c ∧ c.status = .stopped ∧ t.outbox.length = s.outbox.length ∧ t.unsent.length = s.unsent.length)

/-- R242. Causes 0x09, 0x10, 0x13, 0x20 settle nothing; 0x18, 0x19, 0x21, 0x22 settle failed commands and operations. A report of a
join, of whatever cause, may be returned from by each of the three (R340). -/
def Obligations.TrapReturn : Prop :=
  ∀ (s : State) (f : Fields) (x : Issue), s.Runs 0x0B f x →
    let continues := fun (o : Host.Outcome State Fault Refusal) (next : Thread → DWord) => ∃ t, o = .next t ∧ t.mem = s.mem ∧
      ∀ lt ∈ x.parts, ∃ th, t.thread? x.team.uid lt.2.tid = some th ∧ th.handler = false ∧ th.pc = next lt.2 ∧
        th.trapCause = lt.2.trapCause
    let cause := fun (th : Thread) => th.trapCause.toNat % 256
    let ready := ∀ lt ∈ x.parts, lt.2.handler = true ∧ lt.2.trapCause.getLsbD 9 = false
    let plainCause := ∀ lt ∈ x.parts, cause lt.2 ∈ [0x09, 0x10, 0x13, 0x20]
    (ready → plainCause → continues (exec (.trapretRetry f) s) fun th => th.trapPc) ∧
    (ready → plainCause → continues (exec (.trapretResume f) s) fun th => th.resumePc &&& ~~~(3 : DWord)) ∧
    (ready → (∀ lt ∈ x.parts, cause lt.2 ∉ [0x18, 0x19, 0x21, 0x22]) → continues (exec (.trapretSkip f) s) fun th =>
      th.trapPc + match s.wordAt x.grid.ctx x.team.pkCore th.trapPc.toNat with
        | some w => BitVec.ofNat 64 (if w % 4 = 3 then 4 else 4 * (w % 4 + 2))
        | none => 4) ∧
    (∀ lt, x.parts = [lt] → lt.2.handler = false →
      exec (.trapretRetry f) s = .next (s.trapWave x.wave.wid x.pc 0x0A [(lt.2.tid, 0)]) ∧
      exec (.trapretResume f) s = .next (s.trapWave x.wave.wid x.pc 0x0A [(lt.2.tid, 0)]) ∧
      exec (.trapretSkip f) s = .next (s.trapWave x.wave.wid x.pc 0x0A [(lt.2.tid, 0)])) ∧
    (∀ lt, x.parts = [lt] → lt.2.handler = true → lt.2.trapCause.getLsbD 9 = true → x.ctx.handlingJoin = true →
      continues (exec (.trapretResume f) s) (fun th => th.resumePc &&& ~~~(3 : DWord)) ∧
      continues (exec (.trapretSkip f) s) fun th => th.resumePc &&& ~~~(3 : DWord)) ∧
    (∀ lt, x.parts = [lt] → lt.2.handler = true → lt.2.trapCause.getLsbD 9 = false ∨ x.ctx.handlingJoin = false →
      cause lt.2 ∉ [0x09, 0x10, 0x13, 0x18, 0x19, 0x1A, 0x20, 0x21] →
      exec (.trapretRetry f) s = .next (s.trapWave x.wave.wid x.pc 0x0A [(lt.2.tid, cause lt.2)]) ∧
      exec (.trapretResume f) s = .next (s.trapWave x.wave.wid x.pc 0x0A [(lt.2.tid, cause lt.2)]))

/-- R243. SREG is written at once, like every control instruction. -/
def Obligations.HandlerRegisters : Prop :=
  (∀ (s : State) (f : Fields) (x : Issue),
    (s.Runs 0x0E f x → f.a ∈ [Operand.lit 0, .lit 1, .lit 2] → exec (.sreg f) s = .next (x.gives 64 (fun lt => match f.a with
      | .lit 0 => lt.2.resumePc.toNat
      | .lit 1 => lt.2.hcount
      | _ => lt.2.trapMask.toNat) s)) ∧
    (s.Runs 0x0F f x → ∃ t, exec (.swreg f) s = .next t ∧ t.mem = s.mem ∧
      ∀ lt ∈ x.parts, ∃ lt' ∈ x.parts, lt'.2.tid = lt.2.tid ∧ ∃ th, t.thread? x.team.uid lt.2.tid = some th ∧
        th = { lt.2 with resumePc := BitVec.ofNat 64 (x.b lt' 64), pc := x.pc + 8, hcount := lt.2.hcount + 1, released := false,
                         v := th.v, p := th.p, pend := th.pend, iterReg := th.iterReg } ∧
        (f.marker = false → th.v = lt.2.v ∧ th.p = lt.2.p ∧ th.pend = lt.2.pend ∧ th.iterReg = lt.2.iterReg)) ∧
    (∀ op, op = 0x0E ∨ op = 0x0F → s.issue? op f = some x → x.wave.waiting = false → (∃ l ∈ x.team.active x.wave, l.2.handler = false) →
      exec (if op = 0x0E then .sreg f else .swreg f) s =
        .next (s.trapWave x.wave.wid x.pc 0x0A (x.wave.tids.map fun tid => (tid, 0))))) ∧
  (∀ off w i n, decodeAt off w = .ok (i, n) →
    (∀ f, i = .sreg f → f.a ∈ [Operand.lit 0, .lit 1, .lit 2]) ∧ (∀ f, i = .swreg f → f.a = .lit 0))

/-- R274: misaligned atomic, permission, local range, translation, permission, parcel violation, embargo, in order. R275's layout:
SIZE in bits 63 to 61, ACCESS in 60 to 58, SPACE in 57 and 56, the address below. -/
def Obligations.MemoryChecksTrap : Prop :=
  (∀ (s : State) (f : Fields) (x : Issue) (k : Nat) (c : Nat × (Nat × Thread → Option Nat)),
    x.memChecks[k]? = some c → (∀ d ∈ x.memChecks.take k, ∀ lt ∈ x.parts, d.2 lt = none) →
    (∃ lt ∈ x.parts, c.2 lt ≠ none) →
    let traps := fun (o : Host.Outcome State Fault Refusal) =>
      o = .next (s.trapWave x.wave.wid x.pc c.1 (x.parts.filterMap fun lt => (c.2 lt).map fun i => (lt.2.tid, i)))
    (s.Runs 0x80 f x → traps (exec (.ld f) s)) ∧ (s.Runs 0x81 f x → traps (exec (.st f) s)) ∧
    (s.Runs 0x82 f x → traps (exec (.ldacq f) s)) ∧ (s.Runs 0x83 f x → x.noNack → traps (exec (.strel f) s)) ∧
    (s.Runs 0x84 f x → x.noNack → traps (exec (.atom f) s)) ∧ (s.Runs 0x85 f x → x.noNack → traps (exec (.atomc f) s)) ∧
    (s.Runs 0x86 f x → x.noNack → traps (exec (.atomf f) s)) ∧ (s.Runs 0x87 f x → x.noNack → traps (exec (.red f) s))) ∧
  ∀ (s : State) (op : Nat) (f : Fields) (x : Issue) (lt : Nat × Thread), s.Runs op f x →
    (op = 0x80 ∨ op = 0x81 → misalignedErr x lt = none) ∧
    (0x82 ≤ op → x.space = .g → x.ea lt % 2 ^ 52 % x.size ≠ 0 → ∃ i, misalignedErr x lt = some i ∧
      i / 2 ^ 61 = x.size.log2 ∧ i / 2 ^ 58 % 8 = x.access.code ∧ i / 2 ^ 56 % 4 = 0 ∧ i % 2 ^ 56 = x.ea lt % 2 ^ 52) ∧
    (0x82 ≤ op → x.space = .g → x.ea lt % 2 ^ 52 % x.size = 0 → misalignedErr x lt = none)

/-- R272, R277. A local byte that nothing has written is free (log 7). -/
def Obligations.LocalLoads : Prop :=
  ∀ (s : State) (f : Fields) (x : Issue), x.memClear →
    let ext := fun (v : Nat) => match f.mods.ty with
      | .i8 => ((BitVec.ofNat 8 v).signExtend 32).toNat
      | .i16 => ((BitVec.ofNat 16 v).signExtend 32).toNat
      | _ => v
    let locals := fun lt => ((List.range x.size).map fun k => (x.team.locByte (x.offset lt + k)).toNat * 256 ^ k).sum
    (s.Runs 0x80 f x → x.space = .l → exec (.ld f) s = .next (x.gives f.mods.ty.regBits (fun lt => ext (locals lt)) s)) ∧
    (s.Runs 0x82 f x → x.space = .l → exec (.ldacq f) s =
      .next (x.advance [] ((x.write f.mods.ty.regBits (fun lt => ext (locals lt)) s).acquire f.mods.sc x.team))) ∧
    (s.Runs 0x80 f x → x.space = .k → exec (.ld f) s = .next (x.gives f.mods.ty.regBits (fun lt => ext (
      ((List.range x.size).map fun k =>
        x.grid.const ((x.offset lt + k) / 4) / 256 ^ ((x.offset lt + k) % 4) % 256 * 256 ^ k).sum)) s))

/-- R278, R280. `x.offset lt` is the address stored to, of the form's width in bytes from there. -/
def Obligations.LocalStores : Prop :=
  ∀ (s : State) (f : Fields) (x : Issue), x.memClear → x.space = .l →
    let stores := fun (o : Host.Outcome State Fault Refusal) => ∃ t tm, o = .next t ∧ t.team? x.team.uid = some tm ∧
      (∀ a, tm.locByte a = match x.last? (fun lt => decide (x.offset lt ≤ a ∧ a < x.offset lt + x.size)) with
        | some lt => BitVec.ofNat 8 (x.b lt f.mods.ty.regBits / 256 ^ (a - x.offset lt))
        | none => x.team.locByte a) ∧
      (∀ a, Memory.read t.mem a = Memory.read s.mem a) ∧
      (∀ uid, uid ≠ x.team.uid → t.team? uid = s.team? uid) ∧
      (f.marker = false → tm.s = x.team.s ∧ ∀ tid i, t.vreg x.team.uid tid i = s.vreg x.team.uid tid i)
    (s.Runs 0x81 f x → stores (exec (.st f) s)) ∧
    (s.Runs 0x83 f x → x.noNack → x.releasesNow s = true → stores (exec (.strel f) s))

/-- R277, R279, R41. Which sectors are present is the state's; the value comes with L1_FILL_ARRIVAL. A wave splits where some of its
participants have all their sectors, others not; its second part, with the participants that miss, waits for their results. -/
def Obligations.GlobalLoads : Prop :=
  ∀ (s : State) (f : Fields) (x : Issue), x.memClear → x.space = .g → f.marker = false →
    let loads := fun (o : Host.Outcome State Fault Refusal) => ∃ t, o = .next t ∧
      (∀ a, Memory.read t.mem a = Memory.read s.mem a) ∧
      (∀ tid i, t.vreg x.team.uid tid i = s.vreg x.team.uid tid i) ∧
      ∀ lt ∈ x.parts, ∃ p ∈ t.pending x.team.uid lt.2.tid,
        p.load = true ∧ p.va = x.ea lt ∧ p.size = x.size ∧ p.dst = x.dst lt ∧ p.ty = f.mods.ty
    let miss := x.parts.filter fun lt => !x.hits lt
    let polder := ∃ lt ∈ x.parts, ∃ p ∈ x.parts' lt, p.leaf.pk = true
    (s.Runs 0x80 f x → loads (exec (.ld f) s)) ∧
    (s.Runs 0x82 f x → loads (exec (.ldacq f) s)) ∧
    (s.Runs 0x80 f x → ¬polder → miss ≠ [] → (∃ h ∈ x.parts, x.hits h = true ∧ ∀ m ∈ miss, m.2.tid ≠ h.2.tid) →
      ∃ t w v k, exec (.ld f) s = .next t ∧ t.wave? x.wave.wid = some w ∧ v ∈ t.waves ∧ v.park = some k ∧ k.split = true ∧
        (∀ l, l ∈ w.lanes ↔ l ∈ x.wave.lanes ∧ ∀ m ∈ miss, m.2.tid ≠ l.2) ∧ w.park = x.wave.park ∧
        v.lanes = miss.map (fun m => (m.1, m.2.tid)) ∧ k.pc = x.pc + 12 ∧
        ∀ m ∈ miss, ∃ p ∈ t.pending x.team.uid m.2.tid, p.load = true ∧ p.va = x.ea m ∧ p.id ∈ k.ops) ∧
    (s.Runs 0x80 f x → miss = [] ∨ (∀ lt ∈ x.parts, x.hits lt = false) →
      ∃ t w, exec (.ld f) s = .next t ∧ t.wave? x.wave.wid = some w ∧ w.lanes = x.wave.lanes)

/-- R278, R120, R36, R118. `x.storeCells lt` are the datum's bytes at the translated addresses; HOME_SLICE_WRITE_ARRIVAL performs
them. The model's choices: a STREL that is not at .SY completes and is kept until its release holds (log 32), and a store goes to
its L1 slice in a message (log 13). -/
def Obligations.GlobalStores : Prop :=
  ∀ (s : State) (f : Fields) (x : Issue), x.memClear → x.space = .g →
    let stores := fun (o : Host.Outcome State Fault Refusal) => ∃ t, o = .next t ∧
      (∀ a, Memory.read t.mem a = Memory.read s.mem a) ∧
      ∀ lt ∈ x.parts, ∀ c ∈ x.storeCells lt, ∃ m ∈ t.msgs, m.uid = x.team.uid ∧ m.tid = lt.2.tid ∧ m.line = c.1 / 128 ∧
        ∃ bs early, (m.what = .toL1 bs early ∨ isPolder c.1 = true ∧ m.what = .write bs early) ∧ c ∈ bs
    (s.Runs 0x81 f x → stores (exec (.st f) s)) ∧
    (s.Runs 0x83 f x → x.noNack → x.releasesNow s = true → stores (exec (.strel f) s)) ∧
    (s.Runs 0x83 f x → x.noNack → x.releasesNow s = false → f.mods.sc ≠ .sy → ∃ t, exec (.strel f) s = .next t ∧
      t.mem = s.mem ∧ ∀ lt ∈ x.parts, ∃ d ∈ t.deferred, d.uid = x.team.uid ∧ d.tid = lt.2.tid ∧ d.va = x.ea lt ∧ d.sc = f.mods.sc ∧
        ∃ cells, d.what = .inl cells ∧ cells.map (·.2) = toBytes x.size (x.b lt f.mods.ty.regBits)) ∧
    ∀ m bs early, s.msg? m.id = some m → m.what = .toL1 bs early → s.acceptsLater m bs = false →
      ∃ n ∈ (s.acceptMsg m.id).msgs, n.what = .write bs early ∧ n.line = m.line ∧ n.cluster = m.cluster ∧ n.uid = m.uid ∧ n.tid = m.tid

/-- R280 to R284. An atomic on its way to a home slice, or held for a line, is a message. -/
def Obligations.Atomics : Prop :=
  (∀ (s : State) (f : Fields) (x : Issue), x.memClear → x.noNack → f.marker = false →
    x.releases = false ∨ x.releasesNow s = true →
    let near := fun (o : Host.Outcome State Fault Refusal) (result : Bool) => x.space = .l → ∀ lt, x.parts = [lt] →
      let old := ofBytes (x.team.locBytes (x.offset lt) x.size)
      ∃ t tm, o = .next t ∧ t.team? x.team.uid = some tm ∧ t.mem = s.mem ∧
        ofBytes (tm.locBytes (x.offset lt) x.size) = ((x.atomicAt lt (x.offset lt)).new old).getD old % 256 ^ x.size ∧
        (∀ a, a < x.offset lt ∨ x.offset lt + x.size ≤ a → tm.locByte a = x.team.locByte a) ∧
        (result = true → ∃ p ∈ t.pending x.team.uid lt.2.tid, p.parts = 0 ∧
          p.writes = operandWrites f.d f.mods.ty.regBits (extendLoad f.mods.ty old))
    let far := fun (o : Host.Outcome State Fault Refusal) (result : Bool) => x.space = .g →
      ∃ t, o = .next t ∧ (∀ a, Memory.read t.mem a = Memory.read s.mem a) ∧
        (result = true → ∀ lt ∈ x.parts, x.parts' lt ≠ [] → ∃ p ∈ t.pending x.team.uid lt.2.tid,
          p.load = true ∧ p.va = x.ea lt ∧ p.dst = x.dst lt)
    (s.Runs 0x84 f x → near (exec (.atom f) s) true ∧ far (exec (.atom f) s) true) ∧
    (s.Runs 0x85 f x → near (exec (.atomc f) s) true ∧ far (exec (.atomc f) s) true) ∧
    (s.Runs 0x86 f x → near (exec (.atomf f) s) true ∧ far (exec (.atomf f) s) true) ∧
    (s.Runs 0x87 f x → near (exec (.red f) s) false ∧ far (exec (.red f) s) false)) ∧
  (∀ (addr old b c : Nat) (ty : Ty), ty ∈ [Ty.i32, .n32, .b32, .i64, .n64, .b64] → old < 2 ^ ty.bits → b < 2 ^ ty.bits →
    let w := ty.bits
    let new := fun op code => (AtomicOp.mk op code ty addr b c).new old
    let less := fun (p q : Nat) => if ty.isSigned then (BitVec.ofNat w p).slt (BitVec.ofNat w q) else decide (p < q)
    new 0x84 0 = some ((old + b) % 2 ^ w) ∧
    new 0x84 1 = some (if less b old then b else old) ∧ new 0x84 2 = some (if less old b then b else old) ∧
    new 0x84 3 = some (old &&& b) ∧ new 0x84 4 = some (old ||| b) ∧ new 0x84 5 = some (old ^^^ b) ∧ new 0x84 6 = some b ∧
    new 0x84 7 = some (if b ≤ old then 0 else old + 1) ∧
    new 0x84 8 = some (if old = 0 ∨ b < old then b else old - 1) ∧
    new 0x85 0 = if old = b then some (c % 2 ^ w) else none)

/-- R285 to R288, R129. `s.fenceOk` is the condition of R120 and R121 on a thread; `fenced` says that a range fence orders an access.
FENCER completes at once, and its thread carries the range fence until it retires: the model's choice (log 110). -/
def Obligations.FencesAndPrefetch : Prop :=
  ∀ (s : State) (f : Fields) (x : Issue),
    let since := x.wave.since.getD s.seq
    (s.Runs 0x88 f x → (f.mods.sc = .sy → x.noNack) →
      (∀ lt ∈ x.parts, s.fenceOk (if f.mods.sc = .sy then .all else .normal) f.mods.sc (f.mods.ord != .acq) (f.mods.ord != .rel)
        x.team lt.2 since = true) →
      (f.mods.ord = .rel → exec (.fence f) s = .next (x.advance [] s)) ∧
      (f.mods.ord ≠ .rel → x.parts ≠ [] → exec (.fence f) s = .next (x.advance [] (s.acquire f.mods.sc x.team)))) ∧
    (s.Runs 0x89 f x → ∃ t, exec (.fencer f) s = .next t ∧ t.mem = s.mem ∧ t.msgs = s.msgs ∧
      ∀ lt ∈ x.parts, ∃ th, t.thread? x.team.uid lt.2.tid = some th ∧ ∃ r ∈ th.fences,
        r.lo = x.a lt 64 ∧ r.hi = min (x.a lt 64 + x.b lt 64) (2 ^ 52) ∧ r.sc = f.mods.sc ∧
        r.rel = (f.mods.ord != .acq) ∧ r.acq = (f.mods.ord != .rel)) ∧
    (∀ (tm : Team) (th : Thread) (r : RangeFence), s.team? tm.uid = some tm → tm.thread? th.tid = some th →
      (s.fenceOk (.range r.lo r.hi) r.sc r.rel r.acq tm th r.id = true → ∃ th', (s.retireFence tm th r).thread? tm.uid th.tid = some th' ∧
        th'.fences = th.fences.filter (·.id != r.id) ∧ (r.acq = false → (s.retireFence tm th r).l1 = s.l1)) ∧
      (s.fenceOk (.range r.lo r.hi) r.sc r.rel r.acq tm th r.id = false → s.retireFence tm th r = s)) ∧
    ((∀ c ∈ x.memChecks, ∀ lt ∈ x.parts, c.2 lt = none) → x.space = .g →
      (∃ lt ∈ x.parts, lt.2.fenced (x.ea lt) x.size (x.access != .read) = true) →
      let waits := fun (o : Host.Outcome State Fault Refusal) => o = .next (s.updWave x.wave.wid fun w => { w with waiting := true })
      (s.Runs 0x80 f x → waits (exec (.ld f) s)) ∧ (s.Runs 0x81 f x → waits (exec (.st f) s))) ∧
    (s.Runs 0x8A f x → ∃ t, exec (.pref f) s = .next t ∧ t.mem = s.mem ∧
      ∀ tid th, s.thread? x.team.uid tid = some th → ∃ th', t.thread? x.team.uid tid = some th' ∧
        th'.trapCause = th.trapCause ∧ th'.handler = th.handler ∧ (f.marker = false → th'.v = th.v ∧ th'.p = th.p)) ∧
    (∀ sc ∈ [Scope.pk, .sy], ∀ c ∈ (s.acquire sc x.team).l1, c.cluster = x.team.pkCluster → c.held = true)

/-- R57 to R62, R64, R65, R72, R294. The identifier is one of the unused, whichever (log 21). -/
def Obligations.ParcelInstructions : Prop :=
  (∀ (s : State) (f : Fields) (x : Issue),
    (s.Runs 0xA0 f x → (∀ lt ∈ x.parts, pdeclReady x s lt = true) →
      (∀ lt ∈ x.parts, ∀ c ∈ [0x10, 0x11, 0x12], pdeclTrap c x lt = none) →
      exec (.pdecl f) s = .next (x.advance [] (x.parts.foldl x.pdeclOne s))) ∧
    (s.Runs 0xA1 f x →
      exec (.penter f) s = .next (x.advance [] ((sortBy (fun lt => lt.2.tid) x.parts).foldl (fun s lt => x.penterOne lt s) s))) ∧
    (s.Runs 0xA2 f x → exec (.pleave f) s = .next (x.advance [] (x.parts.foldl x.pleaveOne s))) ∧
    (s.Runs 0xA3 f x → exec (.pfree f) s = .next (x.advance [] (x.parts.foldl x.pfreeOne s))) ∧
    (s.Runs 0xA4 f x → exec (.pstat f) s = .next (x.gives 64 (fun lt => match s.parcel? x.grid.ctx (x.a lt 32) with
      | some p => p.state.code * 2 ^ 60 + p.ro.toNat * 2 ^ 59 + p.entered % 2 ^ 16 * 2 ^ 40 + p.lineCount % 2 ^ 32
      | none => 0x80000004) s)) ∧
    let ops := fun (lt : Nat × Thread) => penterOperands [x.a lt 32, x.b lt 32, x.c lt 32, x.e lt 32]
    ∀ (u : State) (lt : Nat × Thread) (th : Thread) (tm : Team),
      u.team? x.team.uid = some tm → tm.thread? lt.2.tid = some th →
      -- PDECL
      (∀ d, x.a lt 64 % 16 = 0 → u.descRead x.team.tlb x.grid.ctx (x.a lt 64) = .ok d →
        u.poisonedVa x.team.tlb x.grid.ctx (x.a lt 64) d.length = false → u.holders = [] →
        (u.declErr x.ctx d = none → ∃ p : Parcel, (x.pdeclOne u lt).parcels = u.parcels ++ [p] ∧ p.id < 4096 ∧
          (∀ q ∈ u.parcels, q.id ≠ p.id) ∧ p.ctx = x.grid.ctx ∧ p.state = .absent ∧ p.entered = 0 ∧
          p.extents = (descExtents d (field d 0 8 % 16)).map (fun e => (e.1 / 128, e.2)) ∧
          (x.pdeclOne u lt).holdsResult x.team.uid lt.2.tid (x.dst lt) 32 p.id) ∧
        (∀ e, u.declErr x.ctx d = some e → (x.pdeclOne u lt).parcels = u.parcels ∧
          (x.pdeclOne u lt).holdsResult x.team.uid lt.2.tid (x.dst lt) 32 e)) ∧
      -- PENTER
      (lt.2.joined = true → (x.penterOne lt u).holdsResult x.team.uid lt.2.tid (x.dst lt) 32 0x80000005) ∧
      (∀ ids, lt.2.joined = false → tm.rel = .inside ids →
        (x.penterOne lt u).holdsResult x.team.uid lt.2.tid (x.dst lt) 32 0 ∧
        ∃ th', (x.penterOne lt u).thread? x.team.uid lt.2.tid = some th' ∧ th'.joined = true) ∧
      (∀ ids, lt.2.joined = false → tm.rel = .asking ids →
        (x.penterOne lt u).waitsIn x.team.uid lt.2.tid (.penter (x.dst lt))) ∧
      (∀ v, lt.2.joined = false → tm.rel = .out → u.request x.ctx x.team.uid (ops lt) = .ok v →
        let w := x.penterOne lt u
        let ids := distinct ((ops lt).map (·.2))
        let atOnce := ∃ head rest, u.queue = head :: rest ∧ u.queueLength < 16384 ∧ (∀ r ∈ u.admission, r.queued = true) ∧
          x.ctx.cprio ≤ head.prio ∧
          ∀ i ∈ ids, ∃ p ∈ u.parcels, p.id = i ∧ p.state = .resident ∧ (0 < p.entered ∨ i ∈ head.parcels)
        w.waitsIn x.team.uid lt.2.tid (.penter (x.dst lt)) ∧
        (∃ t, w.team? x.team.uid = some t ∧ t.rel = .asking ids) ∧
        (atOnce → (∀ r ∈ w.admission, r.uid ≠ x.team.uid) ∧
          w.parcels.map (fun p => (p.id, p.entered)) = u.parcels.map fun p => (p.id, if ids.contains p.id then p.entered + 1 else p.entered)) ∧
        (¬atOnce → w.parcels = u.parcels ∧
          ∃ r ∈ w.admission, r.uid = x.team.uid ∧ r.ctx = x.ctx.num ∧ r.prio = x.ctx.cprio ∧ r.parcels = ids)) ∧
      (∀ e, lt.2.joined = false → tm.rel = .out → u.request x.ctx x.team.uid (ops lt) = .error e →
        (x.penterOne lt u).holdsResult x.team.uid lt.2.tid (x.dst lt) 32 e) ∧
      -- PLEAVE
      (th.joined = false → (x.pleaveOne u lt).holdsResult x.team.uid lt.2.tid (x.dst lt) 32 0x80000007) ∧
      (th.joined = true → (x.pleaveOne u lt).holdsResult x.team.uid lt.2.tid (x.dst lt) 32 0) ∧
      -- PFREE
      (∀ p, u.parcel? x.grid.ctx (x.a lt 32) = some p → (0 < p.entered ∨ p.state = .filling ∨ u.requested p.id = true) →
        (x.pfreeOne u lt).parcels = u.parcels ∧ (x.pfreeOne u lt).holdsResult x.team.uid lt.2.tid (x.dst lt) 32 0x80000006) ∧
      (∀ p, u.parcel? x.grid.ctx (x.a lt 32) = some p → p.entered = 0 → u.requested p.id = false → p.state = .absent →
        (∀ q ∈ (x.pfreeOne u lt).parcels, q.id ≠ p.id) ∧ (x.pfreeOne u lt).holdsResult x.team.uid lt.2.tid (x.dst lt) 32 0) ∧
      (∀ p, u.parcel? x.grid.ctx (x.a lt 32) = some p → p.entered = 0 → u.requested p.id = false →
        (p.state = .resident ∨ p.state = .evicting) →
        (∃ q ∈ (x.pfreeOne u lt).parcels, q.id = p.id ∧ q.state = .evicting ∧ q.freed = true) ∧
        (x.pfreeOne u lt).holdsResult x.team.uid lt.2.tid (x.dst lt) 32 0)) ∧
  (∀ (u : State) (tm : Team) (ids : List Nat) (r : Request), u.team? tm.uid = some tm → tm.rel = .asking ids →
    r ∈ u.admission → r.uid = tm.uid →
    (∀ q ∈ (u.withdraw tm).admission, q.uid ≠ tm.uid) ∧ (u.withdraw tm).parcels = u.parcels ∧
    ∃ t, (u.withdraw tm).team? tm.uid = some t ∧ t.rel = .out) ∧
  ∀ (x : Issue) (u : State) (lt : Nat × Thread) (tm : Team) (ids : List Nat),
    u.team? x.team.uid = some tm → tm.rel = .inside ids → (∃ th, tm.thread? lt.2.tid = some th ∧ th.joined = true) →
    let last := ∀ th ∈ tm.threads, th.tid ≠ lt.2.tid → th.joined = true → th.left = true
    let v := x.pleaveOne u lt
    (last → (∃ t, v.team? x.team.uid = some t ∧ t.rel = .out ∧ ∀ th ∈ t.threads, th.joined = false) ∧
      v.parcels.map (fun p => (p.id, p.entered)) =
        u.parcels.map (fun p => (p.id, if ids.contains p.id then p.entered - 1 else p.entered))) ∧
    (¬last → (∃ t, v.team? x.team.uid = some t ∧ t.rel = .inside ids) ∧ v.parcels = u.parcels)

/-- R86 to R90. The polder's bytes are those at the model's addresses from 2^48 + identifier * 2^28. A line that a cluster
holds, or requests held for it, would come first as the leaf entries are written (R51): the premises of the grant. -/
def Obligations.PolderInstructions : Prop :=
  (∀ (s : State) (f : Fields) (x : Issue),
    (s.Runs 0xA6 f x → exec (.lease f) s = .next (x.advance [] (x.parts.foldl x.leaseOne s))) ∧
    (s.Runs 0xA7 f x → exec (.unlease f) s = .next (x.advance [] (x.parts.foldl x.unleaseOne s))) ∧
    (s.Runs 0xA8 f x → exec (.lstat f) s = .next (x.gives 64 (fun lt => match s.polder? x.grid.ctx (x.a lt 32) with
      | some p => if p.start + p.life ≤ s.now p.die then 0x8000000B
        else min (p.start + p.life - s.now p.die) (2 ^ 41 - 1) * 2 ^ 22 + p.lines
      | none => 0x8000000B) s)) ∧
    ∀ (u : State) (lt : Nat × Thread) (th : Thread), u.thread? x.team.uid lt.2.tid = some th → u.Inv →
      (∀ id a vs, u.holders = [] → (∀ m ∈ u.msgs, m.arrived = 0) → u.leaseCheck x.ctx (x.a lt 32) (x.b lt 64) = .ok (id, a, vs) →
        (∃ q : Polder, (x.leaseOne u lt).polders = u.polders ++ [q] ∧ q.id = id ∧ (∀ p ∈ u.polders, p.id ≠ id) ∧ q.ctx = x.ctx.num ∧
          q.lines = x.a lt 32 ∧ q.life = x.b lt 64 ∧ q.start = u.now x.team.die ∧ q.page = a) ∧
        (∀ o, o < 2 ^ 28 → Memory.read (x.leaseOne u lt).mem (2 ^ 48 + id * 2 ^ 28 + o) = 0) ∧
        (x.leaseOne u lt).holdsResult x.team.uid lt.2.tid (x.dst lt) 64 (x.ctx.pwBase.toNat + a * 2 ^ 16 + id)) ∧
      (∀ w, u.leaseCheck x.ctx (x.a lt 32) (x.b lt 64) = .error w → (x.leaseOne u lt).polders = u.polders ∧
        (x.leaseOne u lt).holdsResult x.team.uid lt.2.tid (x.dst lt) 64 w) ∧
      (∀ p, u.polder? x.grid.ctx (x.a lt 32) = some p →
        (∀ q ∈ (x.unleaseOne u lt).polders, q.id ≠ p.id) ∧ (x.unleaseOne u lt).mem = u.mem ∧
        ⟨p.id, p.ctx, p.lines, []⟩ ∈ (x.unleaseOne u lt).ending ∧
        (x.unleaseOne u lt).holdsResult x.team.uid lt.2.tid (x.dst lt) 32 0) ∧
      (u.polder? x.grid.ctx (x.a lt 32) = none → (x.unleaseOne u lt).polders = u.polders ∧
        (x.unleaseOne u lt).holdsResult x.team.uid lt.2.tid (x.dst lt) 32 0x8000000B)) ∧
  (∀ (u : State) (p : Polder), u.polders.find? (·.id == p.id) = some p →
    (p.start + p.life ≤ u.now p.die → (∀ q ∈ (u.leaseExpiry p.id).polders, q.id ≠ p.id) ∧ (u.leaseExpiry p.id).mem = u.mem ∧
      ⟨p.id, p.ctx, p.lines, []⟩ ∈ (u.leaseExpiry p.id).ending) ∧
    (u.now p.die < p.start + p.life → u.leaseExpiry p.id = u)) ∧
  ∀ (u : State) (e : EndedLease) (k : Nat), u.Inv → u.ending.find? (·.id == e.id) = some e →
    let last := ∀ i, i < 256 → i ≠ k → i ∈ e.applied
    (last → (∀ q ∈ (u.endSlice e.id k).ending, q.id ≠ e.id) ∧
      (∀ o, o < 2 ^ 28 → Memory.read (u.endSlice e.id k).mem (2 ^ 48 + e.id * 2 ^ 28 + o) = 0) ∧
      ∀ b, (b < 2 ^ 48 + e.id * 2 ^ 28 ∨ 2 ^ 48 + (e.id + 1) * 2 ^ 28 ≤ b) → Memory.read (u.endSlice e.id k).mem b = Memory.read u.mem b) ∧
    (¬last → (u.endSlice e.id k).mem = u.mem ∧
      ∀ q ∈ (u.endSlice e.id k).ending, q.id = e.id → k ∈ q.applied)

/-- R107 to R109, R303. A tag holds STATE in bits 1 and 0 (FREE 0, FILLING 1, FULL 2, TAKEN 3), LAP in bit 2, REMAIN from bit 8. -/
def Obligations.SlotInstructions : Prop :=
  (∀ (s : State) (f : Fields) (x : Issue),
    (s.Runs 0xB0 f x → exec (.slotinit f) s = .next (x.advance [] (x.parts.foldl x.slotinitOne s))) ∧
    (s.Runs 0xB1 f x → exec (.slotres f) s = .next (x.advance [] (x.parts.foldl
      (x.slotOne (fun lt => .res (x.b lt 32)) fun lt => .slotres (x.a lt 64) (x.b lt 32) (x.dst lt)) s))) ∧
    (s.Runs 0xB2 f x → exec (.slottake f) s = .next (x.advance [] (x.parts.foldl
      (x.slotOne (fun _ => .take) fun lt => .slottake (x.a lt 64) (x.dst lt)) s))) ∧
    (s.Runs 0xB3 f x → x.released .tm → exec (.slotdone f) s = .next (x.advance [] (x.parts.foldl
      (x.slotOne (fun _ => .done) fun _ => .idle) s.tick))) ∧
    (s.Runs 0xB5 f x → x.released .tm → exec (.slotfill f) s = .next (x.advance [] (x.parts.foldl
      (x.slotOne (fun _ => .fill) fun _ => .idle) s.tick))) ∧
    (s.Runs 0xB4 f x → exec (.slotpeek f) s = .next (x.gives 32 (fun lt => match x.team.ring? (x.a lt 64 % 2 ^ 32) with
      | some r => x.team.locWord (r.tagAt (x.a lt 64 / 2 ^ 32))
      | none => 0x80000010) s)) ∧
    (∀ (u : State) (lt : Nat × Thread) (o : Nat × Thread → SlotOp) (k : Nat × Thread → Wait) (tm : Team) (th : Thread),
      u.team? x.team.uid = some tm → tm.thread? lt.2.tid = some th →
      (tm.slotOp (x.a lt 64) (o lt) = none → (x.slotOne o k u lt).waitsIn x.team.uid lt.2.tid (k lt) ∧
        ∀ t, (x.slotOne o k u lt).team? x.team.uid = some t → t.loc = tm.loc) ∧
      (∀ tm' v, tm.slotOp (x.a lt 64) (o lt) = some (tm', v) →
        (x.slotOne o k u lt).holdsResult x.team.uid lt.2.tid (x.dst lt) 32 v ∧
        ∃ t, (x.slotOne o k u lt).team? x.team.uid = some t ∧ t.loc = tm'.loc))) ∧
  (∀ (tm : Team) (handle : Nat) (o : SlotOp) (r : Ring), tm.ring? (handle % 2 ^ 32) = some r →
    let slot := handle / 2 ^ 32
    let at' := r.tags + 4 * (slot % r.nslots)
    let lap := slot / r.nslots % 2
    let tag := tm.locWord at'
    let here := tag / 4 % 2 = lap
    let becomes := fun (v : Nat) => ∃ t, tm.slotOp handle o = some (t, v) ∧ t.locWord at' = v % 2 ^ 32 ∧
      ∀ a, a < at' ∨ at' + 4 ≤ a → t.locByte a = tm.locByte a
    (∀ n, o = .res n → (n = 0 ∨ r.slotBytes < n) → tm.slotOp handle o = some (tm, 0x80000012)) ∧
    (∀ n, o = .res n → 0 < n → n ≤ r.slotBytes → tag % 4 = 0 → here → becomes (n * 256 + lap * 4 + 1)) ∧
    (∀ n, o = .res n → 0 < n → n ≤ r.slotBytes → ¬(tag % 4 = 0 ∧ here) → tm.slotOp handle o = none) ∧
    (o = .take → tag % 4 = 2 → here → becomes (lap * 4 + 3)) ∧
    (o = .take → ¬(tag % 4 = 2 ∧ here) → tm.slotOp handle o = none) ∧
    (o = .done → tag % 4 = 3 → here → becomes ((1 - lap) * 4)) ∧
    (o = .fill → tag % 4 = 1 → here → becomes (lap * 4 + 2)) ∧
    (o = .done → ¬(tag % 4 = 3 ∧ here) → tm.slotOp handle o = some (tm, 0x80000011)) ∧
    (o = .fill → ¬(tag % 4 = 1 ∧ here) → tm.slotOp handle o = some (tm, 0x80000011))) ∧
  (∀ (tm : Team) (handle : Nat) (o : SlotOp), tm.ring? (handle % 2 ^ 32) = none → tm.slotOp handle o = some (tm, 0x80000010)) ∧
  (∀ (x : Issue) (u : State) (lt : Nat × Thread) (tm : Team) (r : Ring), u.team? x.team.uid = some tm →
    tm.ring? (x.a lt 64 % 2 ^ 32) = some r → ∃ t, (x.slotinitOne u lt).team? x.team.uid = some t ∧
      (∀ k, k < r.nslots → t.locWord (r.tags + 4 * k) = 0) ∧ t.locWord (x.a lt 64 % 2 ^ 32 + 16) = 0)

/-- R99, R102, R304, R305: KIND 01 of R215 for a guard slot. -/
def Obligations.GuardsAndEmbargoQuery : Prop :=
  ∀ (s : State) (f : Fields) (x : Issue),
    let place := fun (lt : Nat × Thread) => lt.2.tid / 32 * 32 + lt.1
    let barred := fun (n : Nat) (lt : Nat × Thread) =>
      s.guardWrites.any fun w => w.1 == x.team.uid && w.2.1 == n && decide (w.2.2 < place lt)
    let sets := fun (o : Host.Outcome State Fault Refusal) (g : Nat × Thread → GuardSlot) =>
      ∃ t tm, o = .next t ∧ t.team? x.team.uid = some tm ∧ t.mem = s.mem ∧ tm.guards.length = x.team.guards.length ∧
        ∀ n, tm.guards[n]? = match (sortBy place x.parts).find? (fun lt => x.a lt 32 == n && !barred n lt) with
          | some lt => if n < x.team.guards.length then some (g lt) else none
          | none => x.team.guards[n]?
    let inRange := ∀ lt ∈ x.parts, x.a lt 32 < x.team.guards.length
    (s.Runs 0xB8 f x → inRange → sets (exec (.gres f) s) fun lt => if x.b lt 32 = 0 then .false else .true) ∧
    (s.Runs 0xB9 f x → inRange → sets (exec (.gclr f) s) fun _ => .unresolved) ∧
    (s.Runs 0xB8 f x → ¬inRange → exec (.gres f) s = .next (s.trapWave x.wave.wid x.pc 0x03 (x.parts.filterMap fun lt =>
      if x.team.guards.length ≤ x.a lt 32 then some (lt.2.tid, 2 ^ 62 + x.a lt 32 % 512) else none))) ∧
    (s.Runs 0xB9 f x → ¬inRange → exec (.gclr f) s = .next (s.trapWave x.wave.wid x.pc 0x03 (x.parts.filterMap fun lt =>
      if x.team.guards.length ≤ x.a lt 32 then some (lt.2.tid, 2 ^ 62 + x.a lt 32 % 512) else none))) ∧
    (s.Runs 0xBA f x → exec (.embq f) s = .next (x.gives 64 (fun lt =>
      match s.embargoes.find? (fun e => e.cluster == x.team.pkCluster && e.entry == x.a lt 32) with
      | none => 0
      | some e =>
        if 63 < x.a lt 32 ∨ e.tag ≠ (if e.loc then x.team.uid else x.grid.ctx) then 0
        else 2 ^ 63 + e.wr.toNat * 2 ^ 62 + e.loc.toNat * 2 ^ 61 + (e.uid == x.team.uid && e.tid == lt.2.tid).toNat * 2 ^ 60
          + e.core % 4 * 2 ^ 58 + e.tid % 1024 * 2 ^ 48 + s.batchOf e.cmd % 2 ^ 32) s))

/-- R93 to R96, R295 to R301. -/
def Obligations.CourierInstructions : Prop :=
  (∀ (s : State) (f : Fields) (x : Issue),
    let passes := fun (c : Nat × Thread → Option Nat) => ∀ lt ∈ x.parts, c lt = none
    let copies := fun (s : State) (lt : Nat × Thread) => match x.copyOp lt with
      | some o => x.issueCourier lt o [] s
      | none => s
    (s.Runs 0xA9 f x → passes (copyLocalErr x) → exec (.cpy f) s = .next (x.advance [] (x.parts.foldl copies s))) ∧
    (s.Runs 0xAA f x → passes (copyLocalErr x) → exec (.cpy2d f) s = .next (x.advance [] (x.parts.foldl copies s))) ∧
    (s.Runs 0xAB f x → passes (cpytdErr x) → passes (cpytdLocalErr x) →
      exec (.cpytd f) s = .next (x.advance [] (x.parts.foldl (fun s lt => match x.cpytdOp lt with
        | some (o, d, r) => x.issueCourier lt o [d, r] s
        | none => s) s))) ∧
    (s.Runs 0xAC f x → exec (.seal f) s = .next (x.advance [] (x.parts.foldl x.sealOne s))) ∧
    (s.Runs 0xAD f x → passes (waitbErr x) → exec (.waitb f) s = .next (x.advance [] (x.parts.foldl x.waitbOne s))) ∧
    (s.Runs 0xAE f x → (∀ lt ∈ x.parts, (s.openSeals x.team.uid lt.2).length < 255 ∧ kvReady x s lt = true) →
      (∀ lt ∈ x.parts, x.kvPoison s lt = none) → (∀ c ∈ [0x10, 0x11, 0x12], passes (kvTrap c x)) → passes (kvLocalErr x) →
      exec (.kvcommit f) s = .next (x.advance [] (x.parts.foldl x.kvOne s))) ∧
    (s.Runs 0xA9 f x → f.mods.bit = false → ∀ lt, x.copyOp lt =
      let width := fun (sp : Space) => if sp = .l then 2 ^ 32 else 2 ^ 64
      if x.c lt 32 = 0 then none
      else some (.cpy (f.mods.dsp == .l) (f.mods.ssp == .l) (x.a lt 64 % width f.mods.dsp) (x.b lt 64 % width f.mods.ssp)
        (x.c lt 32)))) ∧
  ∀ (x : Issue) (u : State) (lt : Nat × Thread) (tm : Team) (th : Thread),
    u.team? x.team.uid = some tm → tm.thread? lt.2.tid = some th →
    let room := fun (k : Courier) => u.queueLen x.team.pkCore < 32 ∧ u.embargoRoom x.team.pkCluster 2 = true ∧
      (∀ j ∈ u.couriers, j.uid = x.team.uid → j.tid = lt.2.tid → j.state ≠ .held) ∧ k.sourceReady u tm = true
    let issued := fun (v : State) (o : CourierOp) (queued held : Courier → Prop) =>
      (∃ k ∈ v.couriers, k.id = u.seq ∧ k.what = o ∧ k.core = x.team.pkCore ∧ k.uid = x.team.uid ∧ k.tid = lt.2.tid ∧
        (k.state = .queued ∧ queued k ∨ k.state = .held ∧ held k ∧ ¬room k)) ∧
      v.queueLen x.team.pkCore ≤ max 32 (u.queueLen x.team.pkCore)
    let sealed := fun (v : State) => ∃ th', v.thread? x.team.uid lt.2.tid = some th' ∧ th'.seals = th.seals + 1
    (∀ o tds, let v := x.issueCourier lt o tds u
      issued v o (fun k => k.batch = 0) (fun k => k.batch = 0 ∧ v.waitsIn x.team.uid lt.2.tid (.courier u.seq)) ∧ v.mem = u.mem) ∧
    ((u.openSeals x.team.uid lt.2).length < 255 →
      sealed (x.sealOne u lt) ∧ (x.sealOne u lt).holdsResult x.team.uid lt.2.tid (x.dst lt) 32 ((th.seals + 1) % 2 ^ 32) ∧
      ∀ k ∈ (x.sealOne u lt).couriers, k.uid = x.team.uid → k.tid = lt.2.tid → k.batch ≠ 0) ∧
    (255 ≤ (u.openSeals x.team.uid lt.2).length → (x.sealOne u lt).waitsIn x.team.uid lt.2.tid (.seal (x.dst lt))) ∧
    (∀ w, u.holders = [] → x.kvPlan u lt = .status w →
      (x.kvOne u lt).holdsResult x.team.uid lt.2.tid (x.dst lt) 64 w ∧ (x.kvOne u lt).couriers = u.couriers) ∧
    (let v := x.kvOne u lt
     let gives := fun (newLen : Nat) => sealed v ∧
       v.holdsResult x.team.uid lt.2.tid (x.dst lt) 64 (newLen * 2 ^ 32 + (th.seals + 1) % 2 ^ 32)
     (∀ newLen, u.holders = [] → x.kvPlan u lt = .go none newLen → gives newLen ∧ v.couriers.length = u.couriers.length) ∧
     ∀ o newLen, u.holders = [] → x.kvPlan u lt = .go (some o) newLen →
       issued v o (fun k => gives newLen ∧ k.batch = th.seals + 1)
         (fun k => k.batch = 0 ∧ v.waitsIn x.team.uid lt.2.tid (.kventer u.seq newLen (x.dst lt)))) ∧
    (let left := (u.openSeals x.team.uid lt.2).length
     let met := left ≤ x.a lt 32 ∨ 255 ≤ x.a lt 32
     let v := x.waitbOne u lt
     (met → v.holdsResult x.team.uid lt.2.tid (x.dst lt) 32 left ∧ v.mem = u.mem ∧
       ∃ th', v.thread? x.team.uid lt.2.tid = some th' ∧ th'.blocked = th.blocked) ∧
     (¬met → v.waitsIn x.team.uid lt.2.tid (.waitb (x.a lt 32) x.f.mods.sc (x.dst lt)))) ∧
    (∀ b n d, th.blocked = some b → b.marker = none → u.courierFault x.team.uid lt.2.tid = none →
      ((u.openSeals x.team.uid th).length ≤ n ∨ 255 ≤ n) →
      let v := u.settleWaitb tm th n d
      v.holdsResult x.team.uid lt.2.tid d 32 (u.openSeals x.team.uid th).length ∧
      ∃ th', v.thread? x.team.uid lt.2.tid = some th' ∧ th'.blocked = none ∧ th'.pc = th.pc + BitVec.ofNat 64 b.len)

/-- R310 to R324. `tdInstall` gives the entry after (none leaves it) and the result word. -/
def Obligations.MatrixInstructions : Prop :=
  (∀ (s : State) (f : Fields) (x : Issue),
    let reads := fun (va n : Nat) => ∃ bs, s.readVa x.team.tlb x.grid.ctx va n = .ok bs
    let quiet := fun (va n : Nat) => s.poisonedVa x.team.tlb x.grid.ctx va n = false
    let enters := fun (o : Host.Outcome State Fault Refusal) => (∀ lt ∈ x.parts, ∃ m, mxCheck x.team x.grid.lrec (x.mxWord lt) = .ok m) →
      o = .next (x.advance [] (x.parts.foldl (fun s lt => match mxCheck x.team x.grid.lrec (x.mxWord lt) with
        | .ok m => x.issueMatrix lt (x.mxWord lt) m s
        | .error _ => s) s))
    (s.Runs 0xC0 f x → (∀ lt ∈ x.parts, reads (x.b lt 64) 32 ∧ quiet (x.b lt 64) 32 ∧ x.ownDone s lt (x.b lt 64) 32 = true) →
      exec (.tdset f) s = .next (x.gives 32 (fun lt => (x.tdInstall lt).2)
        (x.parts.reverse.foldl (fun s lt => match (x.tdInstall lt).1 with
          | some e => s.updTeam x.team.uid fun t => { t with tds := t.tds.set (x.a lt 32) e }
          | none => s) (x.demandImages (fun x lt => x.b lt 64) 32 s)))) ∧
    (s.Runs 0xC1 f x → exec (.tdget f) s = .next (x.gives 64 (fun lt => match x.team.td? (x.a lt 32) with
      | some td => match x.b lt 32 with
        | 0 => td.1.toNat
        | 1 => td.2.1.toNat
        | 2 => td.2.2.1.toNat
        | 3 => td.2.2.2.toNat
        | _ => 0
      | none => 0) s)) ∧
    (s.Runs 0xC2 f x → enters (exec (.mloadw f) s)) ∧ (s.Runs 0xC3 f x → enters (exec (.mswap f) s)) ∧
    (s.Runs 0xC4 f x → enters (exec (.mstream f) s)) ∧ (s.Runs 0xC5 f x → enters (exec (.mzero f) s)) ∧
    (s.Runs 0xC6 f x → enters (exec (.mstore f) s)) ∧
    (s.Runs 0xC8 f x → x.maskWaits s = false → enters (exec (.mmask f) s)) ∧
    (s.Runs 0xCA f x → x.grid.lrec.matrix = true →
      (∀ lt ∈ x.parts, blockReady x s lt = true ∧ quiet (x.a lt 64) (x.blockLen lt) ∧
        (x.a lt 64 % 32 = 0 → reads (x.a lt 64) (x.blockLen lt))) →
      exec (.mxop f) s = .next (x.advance [] (x.parts.foldl x.mxopOne (x.parts.foldl (fun s lt =>
        s.demandVa x.team.tlb x.grid.ctx (x.a lt 64) (x.blockLen lt)) s)))) ∧
    (s.Runs 0xCB f x → x.grid.lrec.matrix = true → x.parts ≠ [] →
      exec (.mresume f) s = .next (x.advance [] (s.restartMatrix x.team.uid))) ∧
    (s.Runs 0xC7 f x → (∀ lt ∈ x.parts, s.mwaitFault x.team.uid lt.2.tid = none) →
      exec (.mwait f) s = .next (x.advance [] (x.parts.foldl x.mwaitOne s))) ∧
    (s.Runs 0xC9 f x → exec (.mstat f) s = .next (x.gives 64 (fun lt => match x.a lt 32 with
      | 0 => if x.grid.lrec.matrix then s.mstat x.team.uid else 0
      | 1 => Sparse.get 0 s.assists x.team.pkCore % 2 ^ 64
      | _ => 0) s))) ∧
  (∀ (count index : Nat) (d : List Byte),
    ((tdOf d).2.1 = 0 → tdInstall count index d = (some none, 0)) ∧
    ((tdOf d).2.1 ≠ 0 → count ≤ index → tdInstall count index d = (none, 0x8000070E)) ∧
    (∀ r, (tdOf d).2.1 ≠ 0 → index < count → (tdOf d).err = some r → tdInstall count index d = (none, 0x8000000E + r * 256)) ∧
    ((tdOf d).2.1 ≠ 0 → index < count → (tdOf d).err = none → tdInstall count index d = (some (some (tdOf d)), 0))) ∧
  (∀ (x : Issue) (u : State) (lt : Nat × Thread) (th : Thread), u.thread? x.team.uid lt.2.tid = some th →
    (∀ m o, ∃ k ∈ (x.issueMatrix lt m o u).matrix, k.id = u.seq ∧ k.what = o ∧ k.uid = x.team.uid ∧ k.tid = lt.2.tid ∧
      (k.state = .queued ∨ k.state = .held ∧ (x.issueMatrix lt m o u).waitsIn x.team.uid lt.2.tid (.matrix [u.seq] 0 .unused))) ∧
    (let left := u.mxUnfinished x.team.uid lt.2.tid
     let met := left ≤ x.a lt 32 ∨ 32 ≤ x.a lt 32
     let v := x.mwaitOne u lt
     (met → v.holdsResult x.team.uid lt.2.tid (x.dst lt) 32 left ∧ v.mem = u.mem ∧
       ∃ th', v.thread? x.team.uid lt.2.tid = some th' ∧ th'.blocked = th.blocked) ∧
     (¬met → v.waitsIn x.team.uid lt.2.tid (.mwait (x.a lt 32) x.f.mods.sc (x.dst lt)))) ∧
    (∀ r, x.mxBlock lt = .error r → (x.mxopOne u lt).matrix = u.matrix ∧
      (x.mxopOne u lt).holdsResult x.team.uid lt.2.tid (x.dst lt) 32 (0x8000000F + r * 256)) ∧
    (∀ ms, x.mxBlock lt = .ok ms →
      (x.mxopOne u lt).matrix.map (fun k => (k.uid, k.what)) =
        u.matrix.map (fun k => (k.uid, k.what)) ++ ms.map (fun m => (x.team.uid, m.2)) ∧
      (x.mxopOne u lt).waitsIn x.team.uid lt.2.tid (.matrix ((List.range ms.length).map (u.seq + ·)) ms.length (x.dst lt)))) ∧
  ∀ (u : State) (uid : Nat), (u.engine uid).stopped = true →
    ((u.restartMatrix uid).engine uid).stopped = false ∧
    (∀ k ∈ (u.restartMatrix uid).matrix, k.uid = uid → ∀ c i, k.state ≠ .faulted c i) ∧
    (u.restartMatrix uid).matrix.map (fun k => (k.id, k.what)) = u.matrix.map (fun k => (k.id, k.what))

/-- R165, R166, R168, R330 to R332. -/
def Obligations.BarriersAndEvents : Prop :=
  (∀ (s : State) (f : Fields) (x : Issue),
    let mask := fun (lt : Nat × Thread) => BitVec.ofNat 256 (x.b lt 64) <<< (64 * (x.a lt 32 % 4))
    (s.Runs 0xD0 f x → x.released .tm → exec (.bar f) s = .next (x.advance [] (x.parts.foldl (x.arriveOne true) s.tick))) ∧
    (s.Runs 0xD1 f x → x.released .tm → exec (.bara f) s = .next (x.advance [] (x.parts.foldl (x.arriveOne false) s.tick))) ∧
    (s.Runs 0xD2 f x → exec (.barw f) s = .next (x.advance [] (x.parts.foldl (fun s lt =>
      let b := literalOf f.a
      if lt.2.arrival b = some (x.team.barrier b).phase then x.block lt.2.tid (.barrier b (x.team.barrier b).phase) s else s) s))) ∧
    (s.Runs 0xD3 f x → x.released .cl → exec (.evset f) s = .next (x.advance [] (x.parts.foldl (fun s lt =>
      x.updEvents s fun v => v ||| mask lt) s.tick))) ∧
    (s.Runs 0xD4 f x → exec (.evclr f) s = .next (x.advance [] (x.parts.foldl (fun s lt =>
      x.updEvents s fun v => v &&& ~~~mask lt) s))) ∧
    (s.Runs 0xD5 f x → exec (.evwait f) s = .next (x.advance [] (x.parts.foldl x.evwaitOne (s.gather x.team.pkCluster)))) ∧
    (s.Runs 0xD6 f x → exec (.evread f) s = .next (x.gives 64 (fun lt =>
      (s.evBits x.team.pkCluster x.grid.ctx).toNat / 2 ^ (64 * (x.a lt 32 % 4)) % 2 ^ 64) s))) ∧
  (∀ (x : Issue) (u : State) (lt : Nat × Thread) (tm : Team) (th : Thread) (stay : Bool),
    u.team? x.team.uid = some tm → tm.thread? lt.2.tid = some th → literalOf x.f.a < tm.barriers.length →
    let b := literalOf x.f.a
    let v := x.arriveOne stay u lt
    (lt.2.arrival b = some (tm.barrier b).phase → v.waitsIn x.team.uid lt.2.tid (.arrive b (tm.barrier b).phase stay)) ∧
    (lt.2.arrival b ≠ some (tm.barrier b).phase →
      (∃ t, v.team? x.team.uid = some t ∧ t.barrier b = { tm.barrier b with count := (tm.barrier b).count + 1 } ∧
        (∃ th', t.thread? lt.2.tid = some th' ∧ th'.arrival b = some (tm.barrier b).phase)) ∧
      (stay = true → v.waitsIn x.team.uid lt.2.tid (.barrier b (tm.barrier b).phase)))) ∧
  (∀ (u : State) (uid b : Nat) (tm : Team), u.team? uid = some tm → b < tm.barriers.length → 0 < (tm.barrier b).count →
    tm.threads.length ≤ (tm.barrier b).count →
    ∃ t, (u.settleBarriers uid).team? uid = some t ∧ (t.barrier b).phase = (tm.barrier b).phase + 1) ∧
  (∀ (x : Issue) (u : State) (g : BitVec 256 → BitVec 256),
    (x.updEvents u g).evBits x.team.pkCluster x.grid.ctx = g (u.evBits x.team.pkCluster x.grid.ctx) ∧
    ∀ cl ctx, (cl, ctx) ≠ (x.team.pkCluster, x.grid.ctx) → (x.updEvents u g).evBits cl ctx = u.evBits cl ctx) ∧
  (∀ (x : Issue) (u : State) (lt : Nat × Thread) (th : Thread), u.thread? x.team.uid lt.2.tid = some th →
    let word := (u.evBits x.team.pkCluster x.grid.ctx).toNat / 2 ^ (64 * (x.a lt 32 % 4)) % 2 ^ 64
    let met := evDone word (x.b lt 64) (x.f.fn == 1) = true
    (met → (x.evwaitOne u lt).holdsResult x.team.uid lt.2.tid (x.dst lt) 64 word ∧
      ∃ th', (x.evwaitOne u lt).thread? x.team.uid lt.2.tid = some th' ∧ th'.blocked = th.blocked) ∧
    (¬met → (x.evwaitOne u lt).waitsIn x.team.uid lt.2.tid (.event (x.a lt 32 % 4) (x.b lt 64) (x.f.fn == 1) (x.dst lt)))) ∧
  (∀ word m any, evDone word m any = if any then decide (m = 0 ∨ word &&& m ≠ 0) else decide (word &&& m = m)) ∧
  ∀ (u : State) (uid : Nat) (tm : Team) (c : Context), u.team? uid = some tm → u.ctx? (u.ctxOf tm) = some c →
    c.trapEntry ≠ 0 → tm.unreachable = true → (∀ th ∈ tm.threads, th.handler = false ∧ th.pend = []) →
    ∃ t, exec (.barrierUnreachable uid) u = .next t ∧ ∀ tid th, tm.thread? tid = some th → ∃ th', t.thread? uid tid = some th' ∧
      th'.blocked = none ∧ th'.pc = c.trapEntry ∧ th'.trapPc = th.pc ∧ th'.trapCause.toNat % 256 = 0x05 ∧
      th'.trapInfo = BitVec.ofNat 64 (th.stuckInfo.getD 0)

/-- R169 to R171, R333 to R336. The entry that SOFGET takes is any of rank 64 or less. -/
def Obligations.TasksAndOffices : Prop :=
  (∀ (s : State) (f : Fields) (x : Issue),
    (s.Runs 0xD7 f x → (∀ c ∈ [0x10, 0x11, 0x12], ∀ lt ∈ x.parts, recordErr c x lt = none) → x.recordReady s = true →
      x.released .pk → exec (.taskpost f) s = .next (x.advance [] (x.parts.foldl x.postOne s.tick))) ∧
    (s.Runs 0xD8 f x → x.grid.lrec.taskHost = true → x.released .cl →
      exec (.taskend f) s = .next (x.advance [] (x.parts.foldl x.taskendOne s.tick))) ∧
    (s.Runs 0xD9 f x → x.released .pk → exec (.sofput f) s = .next (x.advance [] (x.parts.foldl x.sofputOne s.tick))) ∧
    (s.Runs 0xDA f x → exec (.sofget f) s = .next (x.advance [] (x.parts.foldl x.sofgetOne s)))) ∧
  (∀ (x : Issue) (u : State) (lt : Nat × Thread) (tm : Team) (th : Thread),
    u.team? x.team.uid = some tm → tm.thread? lt.2.tid = some th →
    let result := fun (v : State) (w val : Nat) => v.holdsResult x.team.uid lt.2.tid (x.dst lt) w val
    (∀ e, x.postErr lt = some e → (x.postOne u lt).pool = u.pool ∧ result (x.postOne u lt) 32 e) ∧
    (x.postErr lt = none → (x.f.c ≠ .unused ∨ u.poisonedVa x.team.tlb x.grid.ctx (x.a lt 64) 128 = false ∧ u.holders = []) → x.f.fn ≠ 1 →
      u.poolSize (x.b lt 32) < 512 →
      (x.postOne u lt).pool = u.pool ++ [taskOf (x.b lt 32) x.grid.ctx (x.b lt 32 != x.team.pkCluster) (x.record lt)] ∧
      result (x.postOne u lt) 32 0) ∧
    ((x.taskendOne u lt).waitsIn x.team.uid lt.2.tid .idle ∧
      (x.taskendOne u lt).evBits x.team.pkCluster x.grid.ctx =
        u.evBits x.team.pkCluster x.grid.ctx ||| BitVec.ofNat 256 (lt.2.task.getD 0)) ∧
    (let office := x.e lt 32 % 4
     let full := 16384 ≤ (u.offices.filter (·.office == office)).length
     let v := x.sofputOne u lt
     (x.a lt 32 = 2 ^ 32 - 1 → v.offices = u.offices ∧ result v 32 0x80000017) ∧
     (x.a lt 32 ≠ 2 ^ 32 - 1 → full → v.offices = u.offices ∧ result v 32 0x80000016) ∧
     (x.a lt 32 ≠ 2 ^ 32 - 1 → ¬full → v.offices =
        u.offices ++ [⟨office, x.grid.ctx, x.a lt 32, x.b lt 64 + x.c lt 32 * 2 ^ 64, u.seq⟩] ∧ result v 32 0)) ∧
    (let v := x.sofgetOne u lt
     let mine := u.offices.filter fun e => e.office == x.a lt 32 % 4 && e.ctx == x.grid.ctx && decide (u.sofRank e ≤ 64)
     (mine = [] → v.offices = u.offices ∧ result v 128 (2 ^ 32 - 1)) ∧
     (mine ≠ [] → ∃ e ∈ mine, v.offices = u.offices.filter (· != e) ∧ result v 128 (e.key + e.payload * 2 ^ 32)))) ∧
  ∀ (u : State) (cluster : Nat) (k : Task) (pre post : List Task), u.pool = pre ++ k :: post → k.cluster = cluster →
    let hosts := fun (k : Task) (t : Team) => t ∈ u.teams ∧ t.pkCluster = k.cluster ∧ u.ctxOf t = k.ctx ∧ u.canHost t = true
    let ready := fun (k : Task) => k.readyWith (u.evBits k.cluster k.ctx).toNat = true
    ready k → (∃ t, hosts k t) → (∀ j ∈ pre, j.cluster = cluster → ready j → ¬∃ t, hosts j t) →
    (∀ m ∈ u.marks, m.key ≠ [17, cluster]) → (∀ t, hosts k t → u.team? t.uid = some t ∧ (t.threads.map (·.tid)).Nodup) →
    ∃ t tm th₀ th, exec (.taskGather cluster) u = .next t ∧ hosts k tm ∧ t.pool.length < u.pool.length ∧
      th₀ ∈ tm.threads ∧ tm.idle th₀ = true ∧ (∀ th ∈ tm.threads, tm.idle th = true → th₀.tid ≤ th.tid) ∧
      t.thread? tm.uid th₀.tid = some th ∧ th.pc = k.entry ∧ th.blocked = none ∧ th.task = some k.setMask ∧ th.taskArg = k.key ∧
      ∀ i a, k.args[i]? = some a → i < 10 → i < tm.vregs → Sparse.get 0 th.v i = a

/-- R173 to R175, R337. STQRY gives the board's value at its issue, which R131 leaves open between issue and return: the model's
choice (log 35). -/
def Obligations.StageInstructions : Prop :=
  (∀ (s : State) (f : Fields) (x : Issue),
    let joined := ∀ lt ∈ x.parts, lt.2.ljoined ≠ 0
    let passes := fun (c : Nat × Thread → Option Nat) => ∀ lt ∈ x.parts, c lt = none
    let effect := fun (op : Nat × Thread → StageOp) => Host.Outcome.next (x.advance []
      (if (x.team.board.map (·.homewave)).getD false then
        x.parts.foldl (fun s lt => x.block lt.2.tid (.stage (op lt) none) s) s.tick
      else x.parts.foldl (fun s lt => s.stageOne x.team.uid lt (op lt)) s.tick))
    let inOrder := sortBy (fun lt : Nat × Thread => lt.2.tid) x.parts
    (s.Runs 0xDB f x → (∀ lt ∈ x.parts, 1 ≤ x.a lt 32 ∧ x.a lt 32 ≤ 2 ^ 32 - 2 ∧ 1 ≤ x.b lt 32 ∧ x.b lt 32 ≤ 64) →
      ∃ t, exec (.stloop f) s = .next (x.advance [] t) ∧
        (x.team.board = none → x.parts ≠ [] → (∀ lt ∈ x.parts, lt.2.ljoined = x.team.lstarted) →
          ∃ first ∈ x.parts, (∀ lt ∈ x.parts, first.2.tid ≤ lt.2.tid) ∧ ∃ tm, t.team? x.team.uid = some tm ∧
            tm.board = some { n := x.a first 32, w := x.b first 32, homewave := decide (f.fn.toNat = 1) } ∧
            tm.lstarted = x.team.lstarted + 1 ∧
            ∀ lt ∈ x.parts, ∃ th, tm.thread? lt.2.tid = some th ∧ lt.2.ljoined < th.ljoined ∧ th.stgets = 0)) ∧
    (s.Runs 0xDC f x → joined → ((∀ lt ∈ x.parts, lt.2.held = none) ∨ x.released .tm) →
      exec (.stget f) s = .next (x.advance [] (inOrder.foldl (fun s lt => stgetOne x lt s) s.tick))) ∧
    (s.Runs 0xDD f x → passes (stadvErr x) → x.released .tm → exec (.stadv f) s = effect fun lt => .adv (x.a lt 32)) ∧
    (s.Runs 0xDE f x → passes (stageOperandErr x) → passes (stjmpBackErr x) → x.released .tm →
      exec (.stjmp f) s = effect fun lt => .jmp (x.a lt 32)) ∧
    (s.Runs 0xE0 f x → passes (notHolding x) → x.released .tm → exec (.stend f) s = effect fun _ => .fin) ∧
    (s.Runs 0xDF f x → passes (stageOperandErr x) → exec (.waitl f) s = .next (x.advance [] (x.parts.foldl (fun s lt =>
      if x.team.passed lt.2 (x.a lt 32) then s else x.block lt.2.tid (.waitl (x.a lt 32)) s) s))) ∧
    (s.Runs 0xE1 f x → joined → exec (.stqry f) s = .next (x.gives 32 (fun lt => match x.team.board with
      | none => 255
      | some b =>
        if lt.2.ljoined < x.team.lstarted ∨ b.next > x.a lt 32 ∧ b.isRetired (x.a lt 32) then 255
        else if b.next ≤ x.a lt 32 then 0
        else Sparse.get 0 b.counters (x.a lt 32 % 64)) s))) ∧
  (∀ (x : Issue) (u : State) (lt : Nat × Thread) (tm : Team) (th : Thread) (b : Board),
    u.team? x.team.uid = some tm → tm.thread? lt.2.tid = some th → tm.board = some b →
    b.homewave = false → tm.lstarted ≤ th.ljoined → lt.2.held = none →
    let v := stgetOne x lt u
    let receives := fun (i : Nat) (held : Option Nat) => ∃ th', v.thread? x.team.uid lt.2.tid = some th' ∧ th'.held = held ∧
      ∃ p ∈ th'.pend, p.parts = 0 ∧ p.writes = operandWrites (x.dst lt) 32 i ++ [⟨.iter, i⟩]
    (b.next = b.n → receives 0xFFFFFFFF none) ∧
    (b.next ≠ b.n → b.next ≠ 0xFFFFFFFF → b.next < b.oldest + b.w → receives b.next (some b.next)) ∧
    (b.next ≠ b.n → b.oldest + b.w ≤ b.next → v.waitsIn x.team.uid lt.2.tid (.stget (x.dst lt)))) ∧
  ∀ (u : State) (uid : Nat) (lt : Nat × Thread) (tm : Team) (th : Thread) (b : Board) (i : Nat),
    u.team? uid = some tm → tm.thread? lt.2.tid = some th → tm.board = some b → lt.2.held = some i →
    let after := fun (v : State) (p : Board → Prop) => ∃ t, v.team? uid = some t ∧ ∀ b', t.board = some b' → p b'
    (∀ k, after (u.stageOne uid lt (.adv k)) fun b' => Sparse.get 0 b'.counters (i % 64) = Sparse.get 0 b.counters (i % 64) + k) ∧
    (∀ n, after (u.stageOne uid lt (.jmp n)) fun b' => Sparse.get 0 b'.counters (i % 64) = n) ∧
    (after (u.stageOne uid lt .fin) (fun b' => b'.isRetired i = true) ∧
      ∃ th', (u.stageOne uid lt .fin).thread? uid lt.2.tid = some th' ∧ th'.held = none)

/-- R338 to R341. The reads of a record, or of the word of a JOIN, use the L2 lines that they meet: `demand`. -/
def Obligations.LaunchInstructions : Prop :=
  (∀ (s : State) (f : Fields) (x : Issue),
    let inOrder := sortBy (fun lt : Nat × Thread => lt.2.tid) x.parts
    let readable := (∀ c ∈ [0x10, 0x11, 0x12], ∀ lt ∈ x.parts, recordErr c x lt = none) ∧ x.recordReady s = true ∧
      ∀ lt ∈ x.parts, s.poisonedVa x.team.tlb x.grid.ctx (x.a lt 64) 128 = false
    let demand := x.parts.foldl (fun s lt => s.demandVa x.team.tlb x.grid.ctx (x.a lt 64) 128) s
    (s.Runs 0xE2 f x → (∀ lt ∈ x.parts, lt.2.tid = 0) → readable → (∀ lt ∈ x.parts, x.launchStatus demand lt = none) →
      x.released .pk → exec (.launch f) s = .next (x.advance [] (x.parts.foldl x.launchOne demand.tick))) ∧
    (s.Runs 0xE2 f x → readable → ∀ lt w, x.parts = [lt] → lt.2.tid = 0 → x.launchStatus demand lt = some w →
      exec (.launch f) s = .next (x.advance [] (x.give lt 32 w demand).tick)) ∧
    (s.Runs 0xE3 f x → x.released .pk → exec (.launchdep f) s = .next (x.advance []
      (s.tick.updThreads x.team.uid (x.parts.map (·.2.tid)) fun th => { th with triggered := true }))) ∧
    (s.Runs 0xE4 f x → (∀ lt ∈ x.parts, x.a lt 64 % 4 = 0 ∧ ∃ bs, s.readVa x.team.tlb x.grid.ctx (x.a lt 64) 4 = .ok bs) →
      exec (.join f) s = .next (x.advance [] (x.parts.foldl x.joinOne s))) ∧
    (s.Runs 0xE5 f x → x.grid.lrec.taskHost = true → exec (.reggrow f) s = .next (x.advance [] (inOrder.foldl x.growOne s))) ∧
    (s.Runs 0xE6 f x → x.grid.lrec.taskHost = true → exec (.regshrk f) s = .next (x.advance [] (inOrder.foldl x.growOne s)))) ∧
  (∀ (x : Issue) (u : State) (lt : Nat × Thread) (tm : Team) (th : Thread),
    u.team? x.team.uid = some tm → tm.thread? lt.2.tid = some th →
    ((u.pendingLaunches.filter (·.cluster == x.team.pkCluster)).length < 4 →
      (x.launchOne u lt).pendingLaunches = u.pendingLaunches ++ [⟨x.team.pkCluster, x.grid.ctx, x.grid.gid, x.record lt,
        (x.s.imagePages x.team.die (parseLaunch (x.record lt))).getD []⟩] ∧
      (x.launchOne u lt).holdsResult x.team.uid lt.2.tid (x.dst lt) 32 0) ∧
    (let va := x.a lt 64
     let d := u.demandVa x.team.tlb x.grid.ctx va 4
     let zero := storesDone d (.range va (va + 4)) .pk x.team.uid lt.2.tid d.seq = true ∧
       d.poisonedVa x.team.tlb (d.ctxOf x.team) va 4 = false ∧
       ∃ bs, d.readVa x.team.tlb (d.ctxOf x.team) va 4 = .ok bs ∧ ofBytes bs = 0
     (zero → x.joinOne u lt = d.acquire .pk x.team) ∧
     (¬zero → (x.joinOne u lt).waitsIn x.team.uid lt.2.tid (.join va))) ∧
    (∀ w, x.growErr lt = some w → (x.growOne u lt).holdsResult x.team.uid lt.2.tid (x.dst lt) 32 w) ∧
    (x.growErr lt = none → (∃ t, (x.growOne u lt).team? x.team.uid = some t ∧ t.grows = tm.grows ++ [lt.2.tid]) ∧
      ∃ l, x.b lt 32 ≤ l ∧ l < x.b lt 32 + 4096 ∧ l % 4096 = 0 ∧
        (x.growOne u lt).waitsIn x.team.uid lt.2.tid (.grow (x.op == 0xE6) (x.a lt 32) l (x.dst lt)))) ∧
  (∀ (u : State) (uid tid va : Nat) (tm : Team) (th : Thread) (b : Blocked),
    u.team? uid = some tm → tm.thread? tid = some th → th.blocked = some b → b.marker = none →
    let performed := storesDone u (.range va (va + 4)) .pk uid tid u.seq = true
    u.poisonedVa tm.tlb (u.ctxOf tm) va 4 = false →
    (¬performed → u.settleJoin tm th va = u) ∧
    (∀ bs, u.readVa tm.tlb (u.ctxOf tm) va 4 = .ok bs →
      (ofBytes bs ≠ 0 → u.settleJoin tm th va = u) ∧
      (ofBytes bs = 0 → performed → ∃ th', (u.settleJoin tm th va).thread? uid tid = some th' ∧ th'.blocked = none ∧
        th'.pc = th.pc + BitVec.ofNat 64 b.len)) ∧
    (∀ i, u.readVa tm.tlb (u.ctxOf tm) va 4 = .error i → performed →
      u.settleJoin tm th va = u.trapAlone uid tid (xcause i) i)) ∧
  (∀ (tm : Team) (tid : Nat) (rest : List Nat), tm.growOrder = tid :: rest →
    let cycle := fun (i : Nat) => (((tm.thread? i).bind (·.blocked)).map (·.cycle)).getD 0
    ∀ j ∈ tm.grows, cycle tid < cycle j ∨ cycle tid = cycle j ∧ tid ≤ j) ∧
  ∀ (u : State) (uid tid v l : Nat) (rest : List Nat) (shrink : Bool) (d : Operand) (tm : Team) (th : Thread) (b : Blocked),
    u.team? uid = some tm → tm.growOrder = tid :: rest → tm.thread? tid = some th → th.blocked = some b → b.marker = none →
    b.wait = .grow shrink v l d →
    let nv := if shrink then min tm.vregs v else max tm.vregs v
    let nl := if shrink then min tm.localSize l else max tm.localSize l
    (if shrink then u.shrinkOk tm nv nl = true
      else u.fits tm.pkCore uid { u.shapeOf tm with vregs := nv, locals := nl } = true) →
    let u' := u.settleGrow tm
    (∃ t, u'.team? uid = some t ∧ t.vregs = nv ∧ t.localSize = nl ∧ t.grows = rest) ∧
    ∃ th', u'.thread? uid tid = some th' ∧ th'.blocked = none ∧ ∃ p ∈ th'.pend, p.parts = 0 ∧
      p.writes = operandWrites d 32 (nv + nl / 4096 * 2 ^ 16) ++ [⟨.vregs, tm.vregs⟩, ⟨.localSize, tm.localSize⟩]

/-- R342, R345, R389, R390. A map word that cannot be read has no stated value. -/
def Obligations.FabricInstructions : Prop :=
  (∀ (s : State) (f : Fields) (x : Issue), x.noNack →
    let passes := fun (c : Issue → Nat × Thread → Option Nat) => ∀ lt ∈ x.parts, c x lt = none
    let ready := ∀ lt ∈ x.parts, fabricReady x s lt = true
    let issues := fun (o : Host.Outcome State Fault Refusal) => passes fabricLocalErr → passes remoteAlignErr → ready →
      passes wbPoisoned → passes waybillErr → o = .next (x.advance [] (x.parts.foldl x.remoteOne s))
    (s.Runs 0xF0 f x → issues (exec (.wbsend f) s)) ∧ (s.Runs 0xF1 f x → issues (exec (.amsg f) s)) ∧
    (s.Runs 0xF2 f x → issues (exec (.rstore f) s)) ∧ (s.Runs 0xF3 f x → issues (exec (.rsig f) s)) ∧
    (s.Runs 0xF4 f x → passes fabricLocalErr → ready → passes wbPoisoned → exec (.wbchk f) s = .next (x.gives 32 (fun lt =>
      match x.s.wbCheck x.team.die x.ctx (x.a lt 32) (ofBytes (x.team.locBytes (x.a lt 32) 32)) with
      | some (reason, hop) => 0x80000000 + hop * 256 + reason
      | none => 0) s)) ∧
    (s.Runs 0xF5 f x → passes tmapqPoisoned → ∃ v, exec (.tmapq f) s = .next (x.gives 64 v s) ∧ ∀ lt,
      let i := x.a lt 32
      (i < 64 → v lt = if 48 ≤ i then 0 else 2 ^ 63
        + ((List.range 16).map fun p => if s.linkUp? i p then 2 ^ p else 0).sum
        + (if 32 ≤ i ∧ s.nocAvoid.getLsbD (i - 32) then 2 ^ 16 else 0)) ∧
      (∀ h, 64 ≤ i → s.mapWord x.team.die x.ctx 0 = some h → 17 + 288 * (h / 2 ^ 32 % 2 ^ 24) ≤ i - 64 → v lt = 0) ∧
      (∀ h w, 64 ≤ i → s.mapWord x.team.die x.ctx 0 = some h → i - 64 < 17 + 288 * (h / 2 ^ 32 % 2 ^ 24) →
        s.mapWord x.team.die x.ctx (i - 64) = some w → v lt = w))) ∧
  (∀ (x : Issue) (u : State) (lt : Nat × Thread),
    ∃ r, (x.remoteOne u lt).remotes = u.remotes ++ [r] ∧ r.id = u.seq ∧ r.uid = x.team.uid ∧ r.tid = lt.2.tid ∧
      r.ctx = x.grid.ctx ∧ r.va = x.b lt 64 ∧ r.sent = false ∧ r.refused = none ∧
      r.waybill = (if x.op = 0xF1 ∧ x.a lt 32 = 2 ^ 32 - 1 then none
        else some (BitVec.ofNat 256 (ofBytes (x.team.locBytes (x.a lt 32) 32)))) ∧
      (x.op = 0xF0 → r.what = .wbsend x.f.x21.toNat (x.c lt 64)) ∧ (x.op = 0xF3 → r.what = .rsig (x.c lt 64)) ∧
      (x.op = 0xF1 → r.what = .amsg x.f.x21.toNat (x.team.locBytes (x.c lt 32) 32)) ∧
      (x.op = 0xF2 → r.what = .rstore x.size (x.c lt x.f.mods.ty.regBits % 2 ^ x.f.mods.ty.bits)) ∧
      (x.remoteOne u lt).mem = u.mem) ∧
  ∀ (u : State) (die off w : Nat) (c : Context),
    let check := u.wbCheck die c off w
    (off % 32 ≠ 0 → check = some (0x0B, 0)) ∧
    (off % 32 = 0 → (w % 16 ≠ 1 ∨ w / 2 ^ 39 % 2 ^ 9 ≠ 0) → check = some (1, 0)) ∧
    (off % 32 = 0 → w % 16 = 1 → w / 2 ^ 39 % 2 ^ 9 = 0 →
      let hops := w / 2 ^ 4 % 32
      ((hops = 0 ∨ 16 < hops) → check = some (2, 0)) ∧
      (0 < hops → hops ≤ 16 → w / 2 ^ 9 % 16 ≠ 0 → check = some (3, 0)) ∧
      (0 < hops → hops ≤ 16 → w / 2 ^ 9 % 16 = 0 → w / 2 ^ 48 % 2 ^ 16 ≠ wbSum w → check = some (4, 0)))

/-- R36, R37, R44, R49 to R51, R288. The message is the first of its cluster, line and direction (log 13), its packet can cross
(log 56), it is older than the number that the next one will take, and it is all that its access asks of a polder's line (log
126). The home slice refuses no byte, no sector is poisoned, and no home slice has refused a part of the result that it brings. -/
def Obligations.MemorySystemSteps : Prop :=
  ∀ (s : State) (id : Nat) (m : Msg), s.msg? id = some m → s.first m = true → s.crosses m = true → id < s.seq → s.poison = [] →
    (m.line < 2 ^ 41 ∨ s.sameAccess m = [m]) →
    let settled := s.holders = [] ∧ ∀ x ∈ s.msgs, x.arrived = 0
    let unheld := settled ∧ s.recalling m.line = false
    let sent := fun (t : State) (k : MsgKind) => ∃ m' ∈ t.msgs, m'.id = id ∧ m'.cluster = m.cluster ∧ m'.line = m.line ∧ m'.what = k
    let reads := fun (t : State) (ws : List Host.Cell) => ∀ a, Memory.read t.mem a = (lastWrite ws a).getD (Memory.read s.mem a)
    let sector := fun (k : Nat) => BitVec.ofNat 256 (Memory.num s.mem (m.line * 128 + 32 * k) 32)
    let binds := fun (t : State) (uid tid n acc : Nat) => ∀ p ∈ s.pending uid tid, p.id = n → p.parts = 1 → p.refused = false →
      ∃ q ∈ t.pending uid tid, q.id = n ∧ q.parts = 0 ∧ q.writes = operandWrites p.dst p.ty.regBits (extendLoad p.ty (p.acc + acc))
    (∀ bs early, m.what = .write bs early → unheld → (∀ b ∈ bs, s.refusal m.ctx b.1 1 = none) → s.Inv →
      ∃ t, exec (.homeSliceWriteArrival id) s = .next t ∧ reads t bs ∧ sent t (.ack bs early none 0 none)) ∧
    (∀ k al ov ws, m.what = .read k al ov ws → unheld → (∀ w ∈ ws, s.refusal m.ctx w.addr w.count = none) →
      ∃ t, exec (.homeSliceReadArrival id) s = .next t ∧ t.mem = s.mem ∧
        if ws = [] ∧ s.bypassed m.line = true then ∀ m' ∈ t.msgs, m'.id ≠ id
        else sent t (if m.line ≥ 2 ^ 41 ∨ ∃ l ∈ s.l2, l.line = m.line ∧ l.valid.getLsbD k = true then .fill k (sector k) al ov ws
          else .dram k al ov ws)) ∧
    (∀ k al ov ws, m.what = .dram k al ov ws → settled → (∀ w ∈ ws, s.refusal m.ctx w.addr w.count = none) →
      ∃ t, exec (.gddr7ReadReturn id) s = .next t ∧ t.mem = s.mem ∧ sent t (.fill k (sector k) al ov ws)) ∧
    (∀ a p, m.what = .atomic a p → unheld → s.refusal m.ctx a.addr a.size = none → s.Inv →
      let old := Memory.num s.mem a.addr a.size
      ∃ t, exec (.homeSliceAtomicArrival id) s = .next t ∧ sent t (.ack (a.cells old) false p old none) ∧
        reads t (match a.new old with
          | some v => (List.range a.size).map fun k => (a.addr + k, BitVec.ofNat 8 (v / 256 ^ k))
          | none => [])) ∧
    (∀ ov, m.what = .grantReq ov → unheld → ∃ t, exec (.grantRequest id) s = .next t ∧ t.mem = s.mem ∧
      (m.line, m.cluster) ∈ t.holders ∧ sent t (.grant (BitVec.ofNat 1024 (Memory.num s.mem (m.line * 128) 128)) ov)) ∧
    (∀ k d al ov ws, m.what = .fill k d al ov ws → ∃ t, exec (.l1FillArrival id) s = .next t ∧ t.mem = s.mem ∧
      (∀ m' ∈ t.msgs, m'.id ≠ id) ∧
      ∀ w, ws = [w] → binds t w.uid w.tid w.pend (ofBytes (w.bytes m.line k d) * 256 ^ w.first)) ∧
    (∀ bs early p v, m.what = .ack bs early p v none → ∃ t, exec (.storeAck id) s = .next t ∧ t.mem = s.mem ∧
      (∀ m' ∈ t.msgs, m'.id ≠ id) ∧ ∀ n, p = some n → binds t m.uid m.tid n (v % 2 ^ 128)) ∧
    (∀ d ov, m.what = .grant d ov → ∃ t, exec (.grant id) s = .next t ∧ t.mem = s.mem ∧ t.holds m.cluster m.line = true) ∧
    (m.what = .recall → ∃ t, exec (.recall id) s = .next t ∧ t.mem = s.mem ∧ t.holds m.cluster m.line = false ∧
      (∀ m' ∈ t.msgs, m'.id ≠ id) ∧ (s.holds m.cluster m.line = true →
        ∃ m' ∈ t.msgs, m'.cluster = m.cluster ∧ m'.line = m.line ∧ m'.what = .release)) ∧
    (m.what = .release → (∀ x ∈ s.msgs, x.line = m.line → x.arrived = 0) →
      ∃ t, exec (.releaseNotice id) s = .next t ∧ t.mem = s.mem ∧ t.holders = s.holders.filter (· != (m.line, m.cluster))) ∧
    (∀ die ctx page l, die < 4 → s.xlate (.die die) ctx (page * 2 ^ 16) = .ok l →
      ∃ t, exec (.walkComplete die ctx page) s = .next t ∧ t.mem = s.mem ∧ t.cached (.die die) ctx (page * 2 ^ 16) = some l)

/-- R78, R82, R90, R94 to R108, R314 to R323. No line is held by a cluster here, and no request is held for a recall: a held
line is recalled first (R51). The model's choices: a parcel that was named again while EVICTING fills (log 40), a command's completion
writes the bytes that its start did not (log 41), an MLOADW reads its tile at its completion (log 42). -/
def Obligations.EngineSteps : Prop :=
  ∀ (s : State), (∀ m ∈ s.msgs, m.arrived = 0) →
    let goes := fun (o : Host.Outcome State Fault Refusal) (p : State → Prop) => ∃ t, o = .next t ∧ p t
    let ended := fun (id : Nat) (t : State) => (∀ k ∈ t.couriers, k.id ≠ id) ∧ ∀ e ∈ t.embargoes, e.cmd ≠ id
    let gone := fun (id : Nat) (t : State) => (∀ k ∈ t.matrix, k.id ≠ id) ∧ ∀ e ∈ t.embargoes, e.cmd ≠ id
    let reads := fun (t : State) (ws : List Host.Cell) => ∀ a, Memory.read t.mem a = (lastWrite ws a).getD (Memory.read s.mem a)
    (∀ id p, s.parcels.find? (·.id == id) = some p →
      (p.state = .filling → s.waysFree p = true → goes (exec (.fillComplete id) s) fun t => ∃ q ∈ t.parcels, q.id = id ∧
        q.state = (if p.freed then .evicting else .resident) ∧ q.extents = p.extents) ∧
      (p.state = .filling → s.waysFree p = false → exec (.fillComplete id) s = .next s) ∧
      (p.state = .evicting → p.freed = true → goes (exec (.evictionComplete id) s) fun t => ∀ q ∈ t.parcels, q.id ≠ id) ∧
      (p.state = .evicting → p.freed = false → goes (exec (.evictionComplete id) s) fun t =>
        ∃ q ∈ t.parcels, q.id = id ∧ q.state = (if p.entered = 0 then .absent else .filling) ∧ q.extents = p.extents)) ∧
    (∀ id p, s.polders.find? (·.id == id) = some p →
      (p.start + p.life ≤ s.now p.die → goes (exec (.leaseExpiry id) s) fun t => (∀ q ∈ t.polders, q.id ≠ id) ∧
        t.mem = s.mem ∧ ⟨id, p.ctx, p.lines, []⟩ ∈ t.ending) ∧
      (s.now p.die < p.start + p.life → exec (.leaseExpiry id) s = .next s)) ∧
    (∀ core k, s.couriers.find? (fun k => k.core == core && k.state == .queued) = some k →
      (s.ctx? k.ctx).any (fun c => c.status == .stopped) = false →
      (s.guardOf k.uid k.guardSlot = .unresolved → exec (.courierCommandStart core) s = .next s) ∧
      (s.guardOf k.uid k.guardSlot = .false → goes (exec (.courierCommandStart core) s) (ended k.id)) ∧
      (s.guardOf k.uid k.guardSlot = .true → (s.team? k.uid).isSome = true → s.holders = [] → s.poison = [] →
        goes (exec (.courierCommandStart core) s) fun t => ∃ j ∈ t.couriers, j.id = k.id ∧ j.state = .running ∧ j.what = k.what)) ∧
    (∀ id k tm, s.couriers.find? (·.id == id) = some k → s.team? k.uid = some tm → k.state = .running → s.holders = [] →
      s.poison = [] → s.Inv →
      let p := k.plan s tm
      (p.err = none → k.what.slot? = none → (∀ a b c d e f g h, k.what ≠ .kvcommit a b c d e f g h) →
        goes (exec (.courierCommandComplete id) s) fun t => ended id t ∧
          reads t (p.global fun i => !(k.begun && early k.started i))) ∧
      (∀ i, p.err = some i → goes (exec (.courierCommandFault id) s) fun t =>
        (∃ j ∈ t.couriers, j.id = id ∧ j.state = .faulted 0x18 i) ∧ ∀ e ∈ t.embargoes, e.cmd ≠ id) ∧
      (∀ hdr slot r n, k.what.slot? = some (hdr, slot) → p.err = none → tm.ring? hdr = some r →
        let at' := r.tags + 4 * (slot % r.nslots)
        let lap := slot / r.nslots % 2
        let b := min n (p.cells.length - k.landed)
        let left := tm.locWord at' / 256 - b
        0 < b → tm.locWord at' % 4 = 1 → tm.locWord at' / 4 % 2 = lap → b ≤ tm.locWord at' / 256 →
        goes (exec (.slotBytesLanded id n) s) fun t =>
          (∃ u, t.team? k.uid = some u ∧ u.locWord at' = if left = 0 then lap * 4 + 2 else left * 256 + lap * 4 + 1) ∧
          if k.landed + b = p.cells.length then ended id t else ∃ j ∈ t.couriers, j.id = id ∧ j.landed = k.landed + b)) ∧
    (∀ core tm, s.matrixTeam core = some tm → (s.engine tm.uid).stopped = false →
      ((s.engine tm.uid).assist = false → (s.ctx? (s.ctxOf tm)).any (fun c => c.status == .stopped) = false →
        ∀ k, nextStart s [] (s.mxQueue tm.uid) = some k →
        (s.guardOf k.uid k.guardSlot = .false → goes (exec (.matrixCommandStart core) s) (gone k.id)) ∧
        (∀ s', s.guardOf k.uid k.guardSlot = .true → s.holders = [] → s.poison = [] →
          ((s.reregister k).bind fun s => (s.team? k.uid).bind fun t => k.takeSlot s t) = some s' →
          (∃ j ∈ s'.matrix, j.id = k.id) →
          goes (exec (.matrixCommandStart core) s) fun t => ∃ j ∈ t.matrix, j.id = k.id ∧ j.state = .running)) ∧
      ((s.engine tm.uid).assist = false → ∀ k, s.pick [11] ((s.mxRunning tm.uid).filter fun k => (k.fault? s tm).isNone) = some k →
        let e := s.engine k.uid
        let completes := fun (p : Engine → Prop) => goes (exec (.matrixCommandComplete core) s) fun t => gone k.id t ∧ p (t.engine k.uid)
        (k.what = .swap → completes fun e' => e'.active = e.shadow ∧ e'.shadow = e.active) ∧
        (∀ ps, k.what = .mask ps → completes fun e' => e'.parents = ps) ∧
        (∀ row n, k.what = .zero row n → completes fun e' => ∀ r c, c < 128 → Sparse.get 0 e'.acc (128 * r + c) =
          if row ≤ r ∧ r < row + n then 0 else Sparse.get 0 e.acc (128 * r + c)) ∧
        (∀ td r c n kt pl, k.what = .loadw td r c n kt → s.poison = [] → loadPlane s tm k.ctx k.td td r c n kt = .ok pl →
          completes fun e' => e'.shadow = some pl ∧ e'.active = e.active) ∧
        (∀ td r c m a nc ac rnd sat, k.what = .store td r c m a nc ac rnd sat → s.holders = [] → s.poison = [] → s.Inv →
          goes (exec (.matrixCommandComplete core) s) fun t => gone k.id t ∧
            reads t ((k.storePlan s tm).global fun i => !early k.started i))) ∧
      ((s.engine tm.uid).assist = false → ∀ k i, s.pick [11] ((s.mxRunning tm.uid).filter fun k => (k.fault? s tm).isSome) = some k →
        k.fault? s tm = some i → s.holders = [] →
        goes (exec (.matrixCommandFault core) s) fun t => (t.engine tm.uid).stopped = true ∧
          (∃ j ∈ t.matrix, j.id = k.id ∧ j.state = .faulted 0x19 i) ∧ ∀ e ∈ t.embargoes, e.cmd ≠ k.id) ∧
      ((s.engine tm.uid).assist = true → ∀ k r, (s.mxQueue tm.uid).head? = some k → k.run = some (.inr r) →
        goes (exec (.assistComplete core) s) fun t => gone k.id t ∧ (t.engine tm.uid).assist = false ∧ (t.engine tm.uid).rows = 0 ∧
          Sparse.get 0 t.assists core = Sparse.get 0 s.assists core + 1))

/-- R350 to R365. What a grid waits for is `State.gridBusy`. No line is held, no request is held for a recall and no
sector is poisoned where memory is read or written. The model's choices: a migration moves 16 teams (log 125; R360: at most 16), a
staged record carries the cluster of its target in its tag (log 39), a started thread is not in the handler (log 77), and a notice
waits while its port carries no messages (log 127). -/
def Obligations.SchedulingSteps : Prop :=
  ∀ (s : State), s.holders = [] → s.poison = [] → (∀ m ∈ s.msgs, m.arrived = 0) →
    let goes := fun (o : Host.Outcome State Fault Refusal) (p : State → Prop) => ∃ t, o = .next t ∧ p t
    (∀ die tm core rsv g, s.nextTeam die = some (tm, core, rsv) → s.team? tm.uid = some tm → s.grid? tm.gid = some g →
      (s.ctx? g.ctx).isSome = true → tm.status = .queued →
      goes (exec (.teamDispatch die) s) fun t => ∃ u, t.team? tm.uid = some u ∧ u.status = .resident ∧ u.started = true ∧
        u.cluster = core / 4 % 32 ∧ u.core = core % 4 ∧ u.threads.length = g.lrec.teamSize ∧
        (∀ th ∈ u.threads, th.pc = g.lrec.entry ∧ th.p = 0 ∧ th.stack = [] ∧ th.handler = false) ∧
        (g.lrec.parcels = [] → t.waves.length = s.waves.length + (g.lrec.teamSize + 31) / 32 ∧
          ∀ th ∈ u.threads, th.v = [] ∧ th.blocked = none)) ∧
    (∀ die tm c bs cells, s.preemptVictim die = some tm → s.team? tm.uid = some tm → s.ctx? (s.ctxOf tm) = some c →
      s.saveBlocks c tm = some bs → (s.engine tm.uid).assist = false → tm.settled = true → s.saveCells c tm.die 0 bs = some cells →
      goes (exec (.swapOut die) s) fun t => ∃ u, t.team? tm.uid = some u ∧ u.status = .swapped bs ∧ (∀ th ∈ u.threads, th.pend = []) ∧
        u.threads.map (fun th => (th.tid, th.pc, th.stack, th.blocked)) = tm.threads.map (fun th => (th.tid, th.pc, th.stack, th.blocked)) ∧
        ((∀ th ∈ tm.threads, th.pend = []) → u.threads = tm.threads)) ∧
    (∀ die tm core rsv bs, s.nextTeam die = some (tm, core, rsv) → s.team? tm.uid = some tm → tm.status = .swapped bs →
      s.storesAcked tm.uid = true →
      goes (exec (.swapIn die) s) fun t => ∃ u, t.team? tm.uid = some u ∧ u.status = .resident ∧ u.cluster = core / 4 % 32 ∧
        u.core = core % 4 ∧ u.threads = tm.threads) ∧
    (∀ src dst, src ≠ dst → dst < 4 →
      let q := s.dieQueue src
      (q.length ≤ 256 → exec (.teamMigration src dst) s = .next s) ∧
      (256 < q.length → 16 ≤ 2048 - (s.teams.filter fun t => t.die == dst && t.status == .resident).length →
        goes (exec (.teamMigration src dst) s) fun t => t.teams = s.teams.map fun u =>
          if u.uid ∈ (q.drop (q.length - 16)).map (·.uid) then { u with die := dst } else u)) ∧
    (∀ cluster p c g, s.pendingLaunches.find? (·.cluster == cluster) = some p → s.ctx? p.ctx = some c → s.grid? p.gid = some g →
      c.status = .running → s.opens (.cluster cluster) .launchUnit = true → goes (exec (.launchAccept cluster) s) fun t => t.pendingLaunches = s.pendingLaunches.erase p ∧
        t.teams.length = s.teams.length + (parseLaunch p.record).teams ∧
        ∃ h ∈ t.grids, h.lrec = parseLaunch p.record ∧ h.depth = g.depth + 1 ∧ h.origin = .device p.gid) ∧
    (∀ gid g, s.grid? gid = some g → g.copied < g.lrec.cwords → s.refusal g.ctx (g.imageAddr g.copied) 4 = none →
      goes (exec (.constantCopy gid) s) fun t => ∃ h,
      t.grid? gid = some h ∧ h.copied = g.copied + 1 ∧
        Sparse.get 0 h.consts g.copied = BitVec.ofNat 32 (Memory.num s.mem (g.imageAddr g.copied) 4)) ∧
    (∀ ctx c b, s.ctx? ctx = some c → c.status = .running → c.drainStopped = false → c.take < c.put →
      s.readVa (.die 0) ctx (c.dlrBase.toNat + 128 * (c.take % c.dlrSize)) 128 = .ok b →
      let tag := field b 120 8
      tag / 2 ^ 62 = 1 → tag / 2 ^ 48 % 2 ^ 14 < 128 → field b 0 8 % 4 = 0 → field b 0 8 < 2 ^ 52 →
      s.poolSize (tag / 2 ^ 48 % 2 ^ 7) < 512 →
      goes (exec (.dlrDrain ctx) s) fun t => t.pool = s.pool ++ [taskOf (tag / 2 ^ 48 % 2 ^ 7) ctx (!c.dlrNear.contains c.take) (dlrRecord b)] ∧
        ∃ c', t.ctx? ctx = some c' ∧ c'.take = c.take + 1) ∧
    (∀ cluster ctx r c cells, (s.staging.filter fun r => r.cluster == cluster && r.ctx == ctx && r.retry) = [r] →
      r.launch = false → s.freedFor r = false → s.ctx? ctx = some c → c.put - c.take < c.dlrSize →
      s.writeCells (.cluster cluster) ctx (c.dlrBase.toNat + 128 * (c.put % c.dlrSize))
        (r.record.take 120 ++ toBytes 8 (2 ^ 62 + cluster * 2 ^ 48 + (taskFlags r.record % 2))) .write = .ok cells →
      goes (exec (.stagingRetry cluster ctx) s) fun t => t.staging = s.staging.erase r ∧
        ∃ c', t.ctx? ctx = some c' ∧ c'.put = c.put + 1) ∧
    (∀ gid g c, s.grid? gid = some g → s.gridBusy g = false → s.ctx? g.ctx = some c → c.dying = false → g.lrec.nextRec = 0 →
      (∀ first, g.lrec.joinVa = 0 → g.origin = .host first → goes (exec (.gridComplete gid) s) fun t =>
        (∀ h ∈ t.grids, h.gid ≠ gid) ∧ t.mem = s.mem ∧ ∃ m : Outgoing, m.port = c.port ∧ m.host = c.host ∧ m.ctx = g.ctx ∧
          m.code = 0x81 ∧ m.body.take 8 = toBytes 8 gid ∧
          if s.hears c.port then t.outbox = s.outbox ++ [m] else t.unsent = s.unsent ++ [m]) ∧
      (∀ parent p ps, g.origin = .device parent → g.lrec.joinVa ≠ 0 →
        s.translate (.die 0) g.ctx g.lrec.joinVa 4 .atomic = .ok (p :: ps) → permissionErr (p :: ps) .atomic = none →
        s.refusal g.ctx p.addr p.count = none → s.reportRoom g.ctx = true → s.Inv →
        goes (exec (.gridComplete gid) s) fun t => (∀ h ∈ t.grids, h.gid ≠ gid) ∧ t.outbox = s.outbox ∧
          Memory.num t.mem p.addr 4 = (Memory.num s.mem p.addr 4 + 2 ^ 32 - 1) % 2 ^ 32))

/-- R372 to R380. A kill is what the stop record of kind 2 says; `Context.dying` is a context being contained, which is complete
once its accepted stores have performed (log 122). The model's choices: TRAPMASK is 1 at a report (log 69), which ends the wait of
thread 0 (log 68); the INFO of a PREEMPT_RESET counts the teams on cores (log 57); a message waits while its port carries none (log
127). -/
def Obligations.ContextSteps : Prop :=
  ∀ (s : State),
    let goes := fun (o : Host.Outcome State Fault Refusal) (p : State → Prop) => ∃ t, o = .next t ∧ p t
    let killed := fun (o : Host.Outcome State Fault Refusal) (num cause : Nat) (info : Nat → Prop) => goes o fun t =>
      ∃ c, t.ctx? num = some c ∧ c.dying = true ∧ ∃ r, c.stopRec = some r ∧ r.kind = 2 ∧ r.cause = cause ∧ info r.info
    (∀ num c r rest tm th, s.ctx? num = some c → c.reports = r :: rest →
      s.teams.find? (fun t => c.fhGid == some t.gid && t.index == 0) = some tm → s.team? tm.uid = some tm →
      tm.thread? 0 = some th → c.dying = false → c.status ≠ .stopped → c.handling = none → s.deliverable tm th = true →
      c.trapEntry ≠ 0 → r.cause < 256 →
      goes (exec (.reportDelivery num) s) fun t => (∃ th', t.thread? tm.uid 0 = some th' ∧ th'.pc = c.trapEntry ∧
          th'.handler = true ∧ th'.resumePc = th.pc ∧ th'.trapPc = BitVec.ofNat 64 r.pc ∧ th'.trapMask = 1 ∧ th'.hcount = 0 ∧
          th'.trapCause.toNat = r.cause + 2 ^ 8 + 2 ^ 9 ∧ th'.trapInfo = BitVec.ofNat 64 r.info ∧ th'.blocked = none) ∧
        ∃ c', t.ctx? num = some c' ∧ c'.reports = rest ∧ c'.handling = some r) ∧
    (∀ uid tid tm th c, s.team? uid = some tm → tm.thread? tid = some th → th.overrun = true →
      s.ctx? (s.ctxOf tm) = some c → c.dying = false →
      killed (exec (.handlerOverrun uid tid) s) (s.ctxOf tm) 0x31 fun i => i = th.trapCause.toNat) ∧
    (∀ num c deadline h, s.ctx? num = some c → c.status = .preempting deadline h →
      (0 < s.onCores num → deadline < s.now 0 → killed (exec (.preemptReset num) s) num 0x32 fun i => i = s.onCores num) ∧
      (s.onCores num = 0 → goes (exec (.preemptComplete num) s) fun t =>
        (∃ c', t.ctx? num = some c' ∧ c'.status = .preempted) ∧
        s.tells t ⟨c.port, c.host, num, 0, 0x84, 0, []⟩ ∧ s.tells t ⟨h.port, h.host, h.ctx, h.tag, 0x06, 0, []⟩)) ∧
    (∀ uid tm c, s.team? uid = some tm → s.ctx? (s.ctxOf tm) = some c → c.dying = false →
      killed (exec (.uncorrectable (.registerFile uid)) s) (s.ctxOf tm) 0x30 (fun i => i = 2 ^ 60) ∧
      (∀ o, o < 2 ^ 52 → killed (exec (.uncorrectable (.localMem uid o)) s) (s.ctxOf tm) 0x30 fun i => i = 2 * 2 ^ 60 + o) ∧
      killed (exec (.uncorrectable (.engineState uid)) s) (s.ctxOf tm) 0x30 fun i => i = 3 * 2 ^ 60) ∧
    (∀ a, goes (exec (.uncorrectable (.sector a)) s) fun t => a / 32 ∈ t.poison ∧ t.mem = s.mem) ∧
    (∀ u, goes (exec (.uncorrectable (.device u)) s) fun t => ∀ n c, t.ctx? n = some c → (s.ctx? n).isSome = true ∧ c.dying = true) ∧
    (∀ num c to?, s.ctx? num = some c → c.status = .dying to? →
      let left := ∃ m ∈ s.msgs, m.ctx = num ∧ ∃ bs, m.what = .write bs true
      (left → exec (.containmentComplete num) s = .next s) ∧
      (¬left → goes (exec (.containmentComplete num) s) fun t => t.ctx? num = none ∧ (∀ g ∈ t.grids, g.ctx ≠ num) ∧
        (∀ r, c.stopRec = some r → s.tells t ⟨c.port, c.host, num, 0, 0x83, 0, r.bytes⟩) ∧
        ∀ h, to? = some h → s.tells t ⟨h.port, h.host, h.ctx, h.tag, 0x05, 0, []⟩))

/-- R342, R343, R383, R384, R387, R391 to R393, R398. No line is held by a cluster here, and no request is held for a recall: a held line
is recalled first (R51). 52 core cycles are 64 uncore cycles (log 105). The model's choices: an arrival is answered in its own step by
one frame, an answer crosses in one step (log 102), and a fabric port that cannot send makes an operation UNREACHABLE (log 107). -/
def Obligations.FabricSteps : Prop :=
  ∀ (s : State), s.holders = [] → s.poison = [] → (∀ m ∈ s.msgs, m.arrived = 0) → s.Inv →
    let goes := fun (o : Host.Outcome State Fault Refusal) (p : State → Prop) => ∃ t, o = .next t ∧ p t
    let sent := fun (t : State) (n : Nat) => (t.ports[n]?).map (·.sent)
    let received := fun (t : State) (n : Nat) => (t.ports[n]?).map (·.received)
    (∀ id r, s.remotes.find? (·.id == id) = some r → r.abroad = true →
      let back := s.linkUp? (portLeaf r.port) 28 = true ∧ s.routeUp (portLeaf r.port) r.back = true
      (s.listens r.port = false → exec (.remoteAck id) s = .next s) ∧
      (s.listens r.port = true → goes (exec (.remoteAck id) s) fun t =>
        received t r.port = (received s r.port).map (· + 1) ∧
        if back then ∀ q ∈ t.remotes, q.id ≠ id else t.remotes = s.remotes) ∧
      ∀ reason, r.mayRefuse reason = true → s.listens r.port = true → back →
        goes (exec (.fabricNack id reason) s) fun t => ∃ q ∈ t.remotes, q.id = id ∧
          q.refused = some (if reason < 0x30 then 0x21 else 0x22, reason)) ∧
    (∀ (v : Via) va,
      let hears := s.isOpen = true ∧ s.listens v.port = true
      let answers := fun (t : State) (reason : Option Nat) =>
        t.frames = s.frames ++ [⟨v.port, 0, wbBack v.waybill.toNat v.port, .answer reason⟩] ∧
        received t v.port = (received s v.port).map (· + 1) ∧ sent t v.port = (sent s v.port).map (· + 1)
      let arrives := fun (o : Host.Outcome State Fault Refusal) (n : Nat) (a : Access) (performed : State → List Part → Prop) =>
        (¬hears → o = .next s) ∧
        (∀ e, hears → s.remoteParts v.ctx va n a = .error e → goes o fun t => t.mem = s.mem ∧ answers t (some e)) ∧
        ∀ p ps, hears → s.remoteParts v.ctx va n a = .ok (p :: ps) →
          if s.reaches (.fabric v.port) (.slice (lineHome (lineOf p.addr)).1) [32] = true then goes o fun t => performed t (p :: ps)
          else goes o fun t => t.mem = s.mem ∧ answers t (some 0x25)
      (∀ data : List Byte, data.length ≤ 4096 →
        let written := fun (t : State) (ps : List Part) => answers t none ∧ ∀ a, Memory.read t.mem a =
          (lastWrite (ps.flatMap fun p => cellsAt p.addr ((data.drop (p.va - va)).take p.count)) a).getD (Memory.read s.mem a)
        arrives (exec (.remoteStoreArrival v va data) s) data.length .write written ∧
        arrives (exec (.wbsendArrival v va data) s) data.length .write written) ∧
      (∀ n, arrives (exec (.rsigArrival v va n) s) 8 .atomic fun t ps => answers t none ∧ ∀ p, ps.head? = some p →
        Memory.num t.mem p.addr 8 = (Memory.num s.mem p.addr 8 + n) % 2 ^ 64 ∧
        ∀ a, a < p.addr ∨ p.addr + 8 ≤ a → Memory.read t.mem a = Memory.read s.mem a) ∧
      let turn := ∀ p ps, s.remoteParts v.ctx va 1 .atomic = .ok (p :: ps) →
        ∀ r ∈ s.remotes, ∀ a, r.at? = some a → a.1 ≠ (lineHome (lineOf p.addr)).1
      (∀ h payload, ¬turn → exec (.amsgArrival (.other v) va h payload) s = .next s) ∧
      (∀ h payload, turn → arrives (exec (.amsgArrival (.other v) va h payload) s) 1 .atomic fun t ps =>
        (∃ reason, answers t reason ∧ ∀ r, reason = some r → 0x30 ≤ r ∧ r ≤ 0x32 ∧ t.mem = s.mem) ∧
        ∀ p a, ps.head? = some p → a / 128 ≠ p.addr / 128 → Memory.read t.mem a = Memory.read s.mem a)) ∧
    (∀ ctx va h payload,
      (s.ownArrival ctx va h payload = none → exec (.amsgArrival (.own ctx) va h payload) s = .next s) ∧
      ∀ r at', s.ownArrival ctx va h payload = some r → r.at? = some at' → s.routeUp (at'.1 / 8) r.back = true →
        goes (exec (.amsgArrival (.own ctx) va h payload) s) fun t => (∀ q ∈ t.remotes, q.id ≠ r.id) ∨
          ∃ q ∈ t.remotes, q.id = r.id ∧ q.refused ≠ none) ∧
    (∀ sw port p, arbitrate (Sparse.get 63 s.served (32 * sw + port))
        ((s.packets.filter fun p => p.switch == sw && s.wants p port).map fun p => { p with age := s.ageOf p }) = some p →
      let out := exec (.packetForward sw port) s
      let broken := s.linkUp? sw port = false ∨ p.hop = 511 ∧ s.uplinks sw = []
      let last := p.hops.length ≤ p.cur + 1
      let drops := goes out fun t => (∀ q ∈ t.packets, q.id ≠ p.id) ∧ ∀ r, s.opOf p = some r → r.refused = none →
        s.routeUp sw (p.inPort :: (p.hops.take p.cur).reverse) = true → ∃ q ∈ t.remotes, q.id = r.id ∧ q.refused = some (0x21, 0x25)
      (broken → drops) ∧
      (¬broken → last → s.portReady p = false → drops) ∧
      (¬broken → last → s.portReady p = true → goes out fun t => (∀ q ∈ t.packets, q.id ≠ p.id) ∧
        ∀ r w, s.opOf p = some r → r.waybill = some w → sent t r.port = (sent s r.port).map (· + 1) ∧
          ∃ f, t.frames = s.frames ++ [f] ∧ f.port = r.port ∧ f.what = .request r.ctx r.va r.what p.first p.data) ∧
      (¬broken → ¬last → goes out fun t => ∃ q ∈ t.packets, q.id = p.id ∧ q.op = p.op ∧ q.cur = p.cur + 1 ∧
        q.hops[p.cur]? = some p.inPort ∧
        (if sw < 32 then q.switch = 32 + port ∧ q.inPort = sw else q.switch = port ∧ q.inPort = sw - 32))) ∧
    (∀ id, exec (.packetAgeTick id) s = .next { s with
      packets := s.packets.map fun p =>
        if p.id = id ∧ p.since + 52 ≤ s.now (switchDie p.switch) then { p with age := min 15 (p.age + 1), since := p.since + 52 }
        else p }) ∧
    (∀ n, n < s.ports.length → goes (exec (.linkFailure (.fabric n)) s) (fun t => (t.ports[n]?).map (·.up) = some false) ∧
      goes (exec (.linkUp (.fabric n)) s) fun t => (t.ports[n]?).map (·.up) = some true) ∧
    (∀ sw port, goes (exec (.linkFailure (.chip sw port)) s) (fun t => t.linkUp? sw port = false) ∧
      goes (exec (.linkUp (.chip sw port)) s) fun t => t.linkUp? sw port = true)

/-- R349, R354 to R356, R368, R375, R378, R379, R21, R133, R395. A status of code c is 0x80000000 + c. The model's choices: a number
of 2^16 or more stands for physical addresses in a UE access (log 24), whose completion has a code of the model's own (log 67); a
context being contained is not resident (log 25); the order of the checks of PREEMPT and XLATE_INVAL (log 60), when UNLOAD, PREEMPT
and KILL reply (log 61), and the number 65536 of the parcels that a context leaves behind (log 112). Where memory is accessed, no line
is held and no request waits for a recall: a held line is recalled first (R51). -/
def Obligations.ContextCommands : Prop :=
  (∀ (s : State) (u : CmdHdr) (va : Nat), s.boot = .openFull → s.hears u.port = true → s.holders = [] →
      (∀ m ∈ s.msgs, m.arrived = 0) →
    let ctx := u.ctx
    let completes := fun (t : State) (code status : Nat) (body : List Byte) =>
      t.outbox = s.outbox ++ [⟨u.port, u.host, ctx, u.tag, code, status, body⟩]
    (∀ data cells, s.ueCells ctx va data = some cells → s.Inv → ∃ t, exec (.hostUeWrite u va data) s = .next t ∧
      (∀ a, Memory.read t.mem a = (lastWrite cells a).getD (Memory.read s.mem a)) ∧
      completes t (2 ^ 16) 0 []) ∧
    (∀ data, s.ueCells ctx va data = none → ∃ t, exec (.hostUeWrite u va data) s = .next t ∧ t.mem = s.mem ∧
      completes t (2 ^ 16) 1 []) ∧
    (∀ n bs, ctx < 2 ^ 16 → s.readVa (.die 0) ctx va n = .ok bs → s.poisonedVa (.die 0) ctx va n = false → ∃ t,
      exec (.hostUeRead u va n) s = .next t ∧ t.mem = s.mem ∧ completes t (2 ^ 16 + 1) 0 bs) ∧
    (∀ n, ctx < 2 ^ 16 → s.poisonedVa (.die 0) ctx va n = true ∨ (∃ i, s.readVa (.die 0) ctx va n = .error i) → ∃ t,
      exec (.hostUeRead u va n) s = .next t ∧ t.mem = s.mem ∧ completes t (2 ^ 16 + 1) 1 [])) ∧
  (∀ (s : State) (u : CmdHdr) (va n : Nat) (data : List Byte), s.boot = .openFull → s.hears u.port = false →
    exec (.hostUeWrite u va data) s = .next s ∧ exec (.hostUeRead u va n) s = .next s) ∧
  ∀ (s : State) (h : CmdHdr) (body : List Byte),
    let num := h.ctx % 2 ^ 16
    let hdr : CmdHdr := ⟨h.tag % 2 ^ 16, num, h.port, h.host⟩
    let answers := fun (o : Host.Outcome State Fault Refusal) (cmd status : Nat) (p : State → Prop) =>
      ∃ t, o = .next t ∧ t.answers cmd h status [] ∧ p t
    let refuses := fun (o : Host.Outcome State Fault Refusal) (cmd code : Nat) =>
      answers o cmd (0x80000000 + code) fun t => t.contexts = s.contexts ∧ t.grids = s.grids ∧ t.mem = s.mem ∧ t.tlb = s.tlb ∧ t.walks = s.walks
    let becomes := fun (t : State) (p : Context → Context → Prop) => ∀ c, s.ctx? num = some c → ∃ c', t.ctx? num = some c' ∧ p c c'
    (s.serves 1 h body → (∀ r, s.launchErr 0 none body = some r → refuses (exec (.hostLaunch h body) s) 1 (0x19 + 256 * r)) ∧
      (s.launchErr 0 none body = none → s.poison = [] → ∃ t g, exec (.hostLaunch h body) s = .next t ∧
        t.answers 1 h 0 (toBytes 8 g.gid) ∧ g ∈ t.grids ∧ t.grids.length = s.grids.length + 1 ∧ g.lrec = parseLaunch body ∧ g.depth = 1 ∧
        g.origin = .host g.gid ∧ t.teams.length = s.teams.length + g.lrec.teams)) ∧
    (s.serves 2 h body →
      let o := exec (.contextLoad h body) s
      let c := parseContext hdr body
      ((s.ctx? num).isSome = true → refuses o 2 0x44) ∧
      (s.ctx? num = none → (descriptorBad body = true → refuses o 2 0x40) ∧
        (descriptorBad body = false → (16 ≤ s.contexts.length → refuses o 2 0x41) ∧
          (s.contexts.length < 16 →
            (State.reservation { s with contexts := s.contexts ++ [c] } c = none → refuses o 2 0x42) ∧
            (∀ r, State.reservation { s with contexts := s.contexts ++ [c] } c = some r → s.poison = [] →
              answers o 2 0 fun t => ∃ c', t.ctx? num = some c' ∧ c'.xroot = c.xroot ∧ c'.trapEntry = c.trapEntry ∧
                c'.status = .running ∧ c'.rsvSlots = r.2 ∧ ∀ x ∈ s.contexts, x ∈ t.contexts))))) ∧
    (s.serves 3 h body →
      (s.resident? num = none → refuses (exec (.contextUnload h body) s) 3 0x44) ∧
      ∀ c, s.resident? num = some c →
        ((∃ g ∈ s.grids, g.ctx = num ∧ c.fhGid ≠ some g.gid) →
          (s.happened [14, num] = false → refuses (exec (.contextUnload h body) s) 3 0x48) ∧
          (s.happened [14, num] = true → ∃ t, exec (.contextUnload h body) s = .next t ∧ t.outbox = s.outbox ∧
            becomes t fun c c' => c' = { c with unloading := some hdr })) ∧
        ((∀ g ∈ s.grids, g.ctx = num → c.fhGid = some g.gid) → answers (exec (.contextUnload h body) s) 3 0 fun t =>
          t.ctx? num = none ∧ (∀ g ∈ t.grids, g.ctx ≠ num) ∧ (∀ e ∈ t.tlb, e.ctx ≠ num) ∧ (∀ e ∈ t.walks, e.ctx ≠ num) ∧ (∀ p ∈ t.polders, p.ctx ≠ num) ∧
          (∀ p ∈ t.parcels, p.ctx ≠ num) ∧ (∀ k ∈ t.couriers, k.ctx ≠ num) ∧
          ∀ p ∈ s.parcels, p.ctx = num → p.state ≠ .absent → ∃ q ∈ t.parcels, q.id = p.id ∧ q.ctx = 65536 ∧ q.freed = true ∧
            q.state = if p.state = .filling then .filling else .evicting)) ∧
    (s.serves 4 h body →
      let waits := (s.ctx? num).any fun c => c.status == .stopped || c.status == .preempted
      (waits = true → answers (exec (.contextResume h body) s) 4 0 fun t => becomes t fun _ c' => c'.status = .running) ∧
      (waits = false → refuses (exec (.contextResume h body) s) 4 0x44)) ∧
    (s.serves 5 h body →
      (s.ctx? num = none → refuses (exec (.contextKill h body) s) 5 0x44) ∧
      ∀ c, s.ctx? num = some c → ∃ t, exec (.contextKill h body) s = .next t ∧ t.mem = s.mem ∧
        becomes t fun _ c' => c'.status = .dying (some hdr)) ∧
    (s.serves 6 h body →
      let us := ofBytes body
      (s.resident? num = none ∨ (s.resident? num).any (fun c => c.status == .stopped) = true →
        refuses (exec (.preempt h body) s) 6 0x44) ∧
      ∀ c, s.resident? num = some c → c.status ≠ .stopped →
        (us = 0 ∨ 1000000 < us → refuses (exec (.preempt h body) s) 6 0x47) ∧
        (1 ≤ us → us ≤ 1000000 → ∃ t, exec (.preempt h body) s = .next t ∧ t.mem = s.mem ∧
          becomes t fun _ c' => c'.status = .preempting (s.now 0 + 1300 * us) hdr)) ∧
    (s.serves 7 h body →
      let a := ofBytes (body.take 2)
      let b := ofBytes (body.drop 2)
      (s.resident? a = none ∨ s.resident? b = none → refuses (exec (.flip h body) s) 7 0x44) ∧
      ∀ x y, s.resident? a = some x → s.resident? b = some y → answers (exec (.flip h body) s) 7 0 fun t =>
        (∃ x' y', t.ctx? a = some x' ∧ t.ctx? b = some y' ∧ x'.cprio = y.cprio ∧ y'.cprio = x.cprio) ∧
        ∀ n, n ≠ a → n ≠ b → t.ctx? n = s.ctx? n) ∧
    (s.serves 8 h body →
      let all := (body.getD 16 0).getLsbD 0
      let base := ofBytes (body.take 8)
      let n := ofBytes ((body.drop 8).take 8)
      let lo := if all then 0 else base
      let hi := if all then 2 ^ 52 else base + n
      let inRange := all = true ∨ base % 2 ^ 16 = 0 ∧ n % 2 ^ 16 = 0 ∧ base + n ≤ 2 ^ 52
      (s.resident? num = none → refuses (exec (.xlateInval h body) s) 8 0x44) ∧
      (s.resident? num ≠ none → (¬inRange → refuses (exec (.xlateInval h body) s) 8 0x45) ∧
        (inRange → (s.pinnedIn num lo hi = true → refuses (exec (.xlateInval h body) s) 8 0x43) ∧
          (s.pinnedIn num lo hi = false → s.accessing num lo hi = false → answers (exec (.xlateInval h body) s) 8 0 fun t =>
            (∀ e, e ∈ t.tlb ↔ e ∈ s.tlb ∧ ¬(e.ctx = num ∧ e.overlaps lo hi = true)) ∧
            ∀ e, e ∈ t.walks ↔ e ∈ s.walks ∧ ¬(e.ctx = num ∧ e.overlaps lo hi = true)))))

/-- R46, R48, R385, R395, R398, R400 to R407. The fused numbers, the hash, the signatures and the firmware image are opaque (log 4).
The model's choices: corrected errors raise counters by any numbers (log 26), the sizes of TELEMETRY's words (log 63), BOOTS counts and
GDDR 7 stays until step 5 (log 65), numbers of keys and signatures are big-endian (log 66), a message is a frame or more (log 100), and
a message waits while its port carries none (log 127). -/
def Obligations.DeviceCommandsAndPower : Prop :=
  (∀ (s : State) (h : CmdHdr) (body : List Byte),
    let num := h.ctx % 2 ^ 16
    let answers := fun (o : Host.Outcome State Fault Refusal) (cmd : Nat) (out : List Byte) (p : State → Prop) =>
      ∃ t, o = .next t ∧ t.answers cmd h 0 out ∧ p t
    let refuses := fun (o : Host.Outcome State Fault Refusal) (cmd code : Nat) =>
      ∃ t, o = .next t ∧ t.answers cmd h (0x80000000 + code) [] ∧ { t with outbox := s.outbox, ports := s.ports } = s
    let v := ofBytes body
    let ends := fun (t : State) => t.boot = .step 1 ∧ t.contexts = [] ∧ t.teams = [] ∧ t.waves = [] ∧ t.tlb = [] ∧
      t.boots = s.boots + 1
    (s.serves 9 h body →
      (16 < v → refuses (exec (.pinBudget h body) s) 9 0x47) ∧
      (v ≤ 16 → v < s.mostPinned → refuses (exec (.pinBudget h body) s) 9 0x46) ∧
      (v ≤ 16 → s.mostPinned ≤ v → answers (exec (.pinBudget h body) s) 9 [] fun t => t.pinBudget = v)) ∧
    (s.serves 10 h body →
      (v = 0 → answers (exec (.telemetry h body) s) 10 ((List.range 256).flatMap fun k => toBytes 4 (Sparse.get 0 s.pinbyp k))
        fun t => t.pinbyp = []) ∧
      (v = 1 → answers (exec (.telemetry h body) s) 10 ((List.range 512).flatMap fun k => toBytes 8 (Sparse.get 0 s.assists k))
        fun t => t.assists = s.assists) ∧
      (v = 2 → ∃ out, answers (exec (.telemetry h body) s) 10 out fun t => out = t.ecc.flatMap (toBytes 8) ∧
        ∀ i e, i < 16 → s.ecc[i]? = some e → ∃ e', t.ecc[i]? = some e' ∧ e ≤ e') ∧
      (v = 3 → ∃ ps : List Port,
        answers (exec (.telemetry h body) s) 10 (ps.flatMap fun p => toBytes 8 p.sent ++ toBytes 8 p.received ++ toBytes 8 p.fec) fun _ =>
          ∀ q p, q < 16 → s.ports[q]? = some p → ∃ p', ps[q]? = some p' ∧ p'.sent = p.sent ∧ p.fec ≤ p'.fec ∧
            if q = h.port then p.received < p'.received else p'.received = p.received) ∧
      (3 < v → refuses (exec (.telemetry h body) s) 10 0x47)) ∧
    (s.serves 11 h body →
      let p := v % 2 ^ 16
      let m := v / 2 ^ 16
      let last := ∀ q port, s.ports[q]? = some port → (if q = p then m = 1 else port.waybillMode = true)
      (16 ≤ p ∨ 1 < m → refuses (exec (.portMode h body) s) 11 0x47) ∧
      (p < 16 → m ≤ 1 → p = h.port ∨ last → refuses (exec (.portMode h body) s) 11 0x48) ∧
      (p < 16 → m ≤ 1 → p ≠ h.port → ¬last → answers (exec (.portMode h body) s) 11 [] fun t =>
        ∀ q port, s.ports[q]? = some port → ∃ port', t.ports[q]? = some port' ∧ port'.up = port.up ∧
          port'.waybillMode = if q = p then m == 1 else port.waybillMode)) ∧
    (s.serves 12 h body →
      (v = 65535 → refuses (exec (.nocAvoid h body) s) 12 0x47) ∧
      (v < 65535 → answers (exec (.nocAvoid h body) s) 12 [] fun t => t.nocAvoid.toNat = v)) ∧
    (s.serves 13 h body →
      let n := ofBytes (body.take 4)
      (64 ≤ n ∨ s.resident? num = none → refuses (exec (.amLoad h body) s) 13 0x47) ∧
      (∀ c, n < 64 → s.resident? num = some c → answers (exec (.amLoad h body) s) 13 [] fun t =>
        ∃ c', t.ctx? num = some c' ∧ c'.handlers = c.handlers.filter (·.1 != n) ++ [(n, body.drop 4)])) ∧
    (s.serves 16 h body → answers (exec (.identity h body) s) 16 ([4] ++ (toBytes 66 Config.identityX.toNat).reverse
      ++ (toBytes 66 Config.identityY.toNat).reverse ++ toBytes 4 s.deviceId.toNat ++ toBytes 1 s.lifecycle.code ++ toBytes 8 Config.serial.toNat)
      fun t => { t with outbox := s.outbox, ports := s.ports } = s) ∧
    (s.serves 17 h body →
      let r := s.report216 body
      let sig := Config.sign s.signatures r
      let cfg := toBytes 4 s.pinBudget ++ (s.ports.flatMap fun p => toBytes 1 p.waybillMode.toNat) ++ toBytes 2 s.nocAvoid.toNat
      r.length = 216 ∧
      r.take 16 = toBytes 2 1 ++ toBytes 1 s.lifecycle.code ++ [0] ++ toBytes 4 s.deviceId.toNat ++ toBytes 8 s.boots ∧
      (r.drop 16).take 64 = body ∧
      (r.drop 80).take 64 = (toBytes 64 (Config.sha512 (Config.firmwareImage s.boots)).toNat).reverse ∧
      (r.drop 144).take 8 = toBytes 4 s.fwsvn.toNat ++ [0, 0, 0, 0] ∧ r.drop 152 = (toBytes 64 (Config.sha512 cfg).toNat).reverse ∧
      (s.keyErased = true → refuses (exec (.attest h body) s) 17 0x4B) ∧
      (s.keyErased = false → answers (exec (.attest h body) s) 17 (r ++ (toBytes 66 sig.1.toNat).reverse ++ (toBytes 66 sig.2.toNat).reverse)
        fun t => t.mem = s.mem ∧ t.signatures = s.signatures + 1)) ∧
    (s.serves 18 h body →
      let o := exec (.lifecycle h body) s
      let target := (body.getD 0 0).toNat
      let signed := s.lifecycle.key.any fun k => Config.verify (Config.fusedHash k)
        (Config.sha512 (toBytes 8 Config.serial.toNat ++ toBytes 1 target))
        (BitVec.ofNat 528 (ofBytes ((body.drop 4).take 66).reverse)) (BitVec.ofNat 528 (ofBytes ((body.drop 70).take 66).reverse))
      (s.contexts ≠ [] → refuses o 18 0x48) ∧
      (s.contexts = [] →
        let allowed := fun l => (s.lifecycle, target, l) ∈ [(Lifecycle.manufacture, 1, Lifecycle.test), (.test, 2, .production),
          (.production, 3, .returned), (.manufacture, 4, .retired), (.test, 4, .retired), (.production, 4, .retired), (.returned, 4, .retired)]
        ((∀ l, ¬allowed l) → refuses o 18 0x4B) ∧
        (∀ l, allowed l → (signed = false → refuses o 18 0x4A) ∧
          (signed = true → answers o 18 [] fun t => t.lifecycle = l ∧ t.mem = [] ∧ ends t ∧
            (t.keyErased = true ↔ s.keyErased = true ∨ l = .retired))))) ∧
    (s.serves 19 h body → answers (exec (.hostReset h body) s) 19 [] fun t => t.mem = s.mem ∧ t.lifecycle = s.lifecycle ∧ ends t) ∧
    (s.serves 20 h body →
      (s.contexts ≠ [] → refuses (exec (.setId h body) s) 20 0x48) ∧
      (s.contexts = [] → 2 ^ 21 ≤ v → refuses (exec (.setId h body) s) 20 0x47) ∧
      (s.contexts = [] → v < 2 ^ 21 → answers (exec (.setId h body) s) 20 [] fun t => t.deviceId.toNat = v)) ∧
    ∀ cmd, s.hears h.port = true → s.commanding = false → s.boot = .openFull → cmd < 2 ^ 16 → cmdFits cmd body.length = false →
      refuses (exec (.unknownCommand cmd h body) s) cmd 0x49) ∧
  [Lifecycle.manufacture, .test, .production, .returned, .retired].map Lifecycle.key =
    [some .manufacturing, some .development, some .production, some .development, none] ∧
  (∀ (l : Lifecycle) (img : List Byte),
    let n := img.length - 200
    let block := img.drop n
    (imageVersion img).toNat = ofBytes ((img.drop 8).take 4) % 2 ^ 32 ∧
    (l.accepts img = true ↔ 200 ≤ img.length ∧ ofBytes (block.take 2) = 1 ∧ ofBytes ((block.drop 2).take 2) = 0 ∧
      ∃ k, l.key = some k ∧ (block.drop 4).take 64 = (toBytes 64 (Config.fusedHash k).toNat).reverse ∧
        Config.verify (Config.fusedHash k) (Config.sha512 (img.take n)) (BitVec.ofNat 528 (ofBytes ((block.drop 68).take 66).reverse))
          (BitVec.ofNat 528 (ofBytes ((block.drop 134).take 66).reverse)) = true)) ∧
  ∀ (s : State),
    let goes := fun (o : Host.Outcome State Fault Refusal) (p : State → Prop) => ∃ t, o = .next t ∧ p t
    (s.boot = .held → goes (exec .powerGood s) fun t => t.boot = .step 1 ∧ t.boots = s.boots + 1 ∧ t.mem = s.mem) ∧
    (s.boot ≠ .held → exec .powerGood s = .next s) ∧
    (∀ n, s.boot = .step n →
      (goes (exec (.bringUpStepDone false) s) fun t => t.boot = .recovery ∧ t.mem = s.mem) ∧
      (n = 2 → let img := Config.firmwareImage s.boots
        let v := imageVersion img
        (s.lifecycle.accepts img = true → s.fwsvn.toNat ≤ v.toNat →
          goes (exec (.bringUpStepDone true) s) fun t => t.boot = .step 3 ∧ t.fwsvn = v) ∧
        (s.lifecycle.accepts img = false ∨ v.toNat < s.fwsvn.toNat →
          goes (exec (.bringUpStepDone true) s) fun t => t.boot = .recovery ∧ t.fwsvn = s.fwsvn)) ∧
      (n = 5 → goes (exec (.bringUpStepDone true) s) fun t => t.boot = .step 6 ∧ ∀ a, Memory.read t.mem a = 0) ∧
      (n = 6 → goes (exec (.bringUpStepDone true) s) fun t => t.boot = .step 7 ∧ t.nocAvoid = 0 ∧ t.pinBudget = 12 ∧
        ∀ p ∈ t.ports, p.waybillMode = false) ∧
      (n = 7 → goes (exec (.bringUpStepDone true) s) fun t => t.boot = .openFull ∧ t.mem = s.mem) ∧
      (n ∈ [1, 3, 4] → goes (exec (.bringUpStepDone true) s) fun t => t.boot = .step (n + 1) ∧ t.mem = s.mem)) ∧
    (∀ on, goes (exec (.powerThrottle on) s) fun t => { t with throttled := s.throttled } = s ∧ t.throttled = on) ∧
    (goes (exec .junctionOvertemp s) fun t => t.boot = .held ∧ t.contexts = [] ∧
      ∀ c ∈ s.contexts, ∃ x ∈ s.contexts, x.host = c.host ∧ (s.hears x.port = true →
        ∃ m ∈ t.outbox.drop s.outbox.length, m.port = x.port ∧ m.host = c.host ∧ m.code = 0x85)) ∧
    (goes (exec .inputVoltageFault s) fun t => t.boot = .held ∧ t.contexts = [] ∧ t.outbox = s.outbox)
end

