-- ==== Sys2Proof/Laws/Memory.lean ====
section
/-! SUPPORT. Sparse tables and memory: every operation keeps the canonical form, and what a byte reads as afterwards. -/

set_option Elab.async false

namespace Sys2Proof.Machine
theorem Sparse.wfFrom_mono {α : Type} [DecidableEq α] {d : α} {lo lo' : Nat} (hl : lo' ≤ lo) :
    ∀ l : List (Nat × α), Sparse.wfFrom d lo l = true → Sparse.wfFrom d lo' l = true
  | [], _ => rfl
  | (k, a) :: t, h => by
    simp only [Sparse.wfFrom, Bool.and_eq_true, decide_eq_true_eq] at h ⊢
    exact ⟨⟨by omega, h.1.2⟩, h.2⟩

theorem Sparse.filter_wf {α : Type} [DecidableEq α] {d : α} (p : Nat × α → Bool) :
    ∀ (l : List (Nat × α)) (lo : Nat), Sparse.wfFrom d lo l = true → Sparse.wfFrom d lo (l.filter p) = true
  | [], _, _ => rfl
  | (k, a) :: t, lo, h => by
    simp only [Sparse.wfFrom, Bool.and_eq_true, decide_eq_true_eq] at h
    rw [List.filter_cons]
    split
    · simp only [Sparse.wfFrom, Bool.and_eq_true, decide_eq_true_eq]
      exact ⟨h.1, Sparse.filter_wf p t (k + 1) h.2⟩
    · exact Sparse.filter_wf p t lo (Sparse.wfFrom_mono (by omega) t h.2)

theorem Sparse.insert_wf {α : Type} [DecidableEq α] {d : α} (k : Nat) (a : α) (ha : a ≠ d) :
    ∀ (l : List (Nat × α)) (lo : Nat), lo ≤ k → Sparse.wfFrom d lo l = true → Sparse.wfFrom d lo (Sparse.insert l k a) = true
  | [], lo, hlo, _ => by simp [Sparse.insert, Sparse.wfFrom, hlo, ha]
  | (k', a') :: t, lo, hlo, h => by
    simp only [Sparse.wfFrom, Bool.and_eq_true, decide_eq_true_eq] at h
    unfold Sparse.insert
    split
    · subst_vars
      simp [Sparse.wfFrom, *]
    · split
      · simp only [Sparse.wfFrom, Bool.and_eq_true, decide_eq_true_eq]
        exact ⟨⟨hlo, ha⟩, ⟨by omega, h.1.2⟩, h.2⟩
      · simp only [Sparse.wfFrom, Bool.and_eq_true, decide_eq_true_eq]
        exact ⟨h.1, Sparse.insert_wf k a ha t (k' + 1) (by omega) h.2⟩

theorem Sparse.put_wf {α : Type} [DecidableEq α] {d : α} (k : Nat) (a : α) (l : List (Nat × α)) (lo : Nat) (hlo : lo ≤ k)
    (h : Sparse.wfFrom d lo l = true) : Sparse.wfFrom d lo (Sparse.put d l k a) = true := by
  unfold Sparse.put
  split
  · exact Sparse.filter_wf _ l lo h
  · next ha => exact Sparse.insert_wf k a ha l lo hlo h

theorem Sparse.putAll_wf {α : Type} [DecidableEq α] {d : α} :
    ∀ (ws l : List (Nat × α)), Sparse.wfFrom d 0 l = true → Sparse.wfFrom d 0 (Sparse.putAll d l ws) = true
  | [], _, h => h
  | (k, a) :: t, l, h => Sparse.putAll_wf t _ (Sparse.put_wf k a l 0 (Nat.zero_le k) h)

theorem Memory.write_wf (m ws : List Host.Cell) (h : Memory.wf m = true) : Memory.wf (Memory.write m ws) = true :=
  Sparse.putAll_wf ws m h

theorem Memory.clear_wf (m : List Host.Cell) (lo hi : Nat) (h : Memory.wf m = true) : Memory.wf (Memory.clear m lo hi) = true :=
  Sparse.filter_wf _ m 0 h
/-- Without a key's entries, the key reads as the default and every other as before. -/
theorem Sparse.get_filter {α : Type} {d : α} (k j : Nat) :
    ∀ l : List (Nat × α), Sparse.get d (l.filter (·.1 != k)) j = if j = k then d else Sparse.get d l j
  | [] => by simp [Sparse.get]
  | (i, b) :: t => by
    have ih := Sparse.get_filter (d := d) k j t
    rw [List.filter_cons]
    by_cases hik : i = k
    · subst hik
      have : ¬ j = i → ¬ i = j := fun h e => h e.symm
      by_cases hj : j = i <;> simp_all [Sparse.get]
    · by_cases hij : i = j
      · subst hij; simp [hik, Sparse.get]
      · simp [hik, hij, ih, Sparse.get]

theorem Sparse.get_insert {α : Type} {d : α} (k j : Nat) (a : α) :
    ∀ l : List (Nat × α), Sparse.get d (Sparse.insert l k a) j = if j = k then a else Sparse.get d l j
  | [] => by
    by_cases hj : j = k
    · simp [Sparse.insert, Sparse.get, hj]
    · have hkj : ¬ k = j := fun e => hj e.symm
      simp [Sparse.insert, Sparse.get, hj, hkj]
  | (i, b) :: t => by
    have ih := Sparse.get_insert (d := d) k j a t
    unfold Sparse.insert
    by_cases hj : j = k
    · subst hj
      split
      · simp [Sparse.get]
      · split <;> simp_all [Sparse.get]
    · have hkj : ¬ k = j := fun e => hj e.symm
      split
      · subst_vars; simp [Sparse.get, hkj]
      · split <;> simp_all [Sparse.get]

/-- A table read after a key has taken a value, whatever the table. -/
theorem Sparse.get_put {α : Type} [DecidableEq α] {d : α} (k j : Nat) (a : α) (l : List (Nat × α)) :
    Sparse.get d (Sparse.put d l k a) j = if j = k then a else Sparse.get d l j := by
  unfold Sparse.put
  split
  · next ha => rw [Sparse.get_filter, ha]
  · exact Sparse.get_insert k j a l

/-- A byte read after a write: the byte written last there, or what was there. -/
theorem Memory.read_write (a : Nat) : ∀ (ws m : List Host.Cell),
    Memory.read (Memory.write m ws) a = (lastWrite ws a).getD (Memory.read m a)
  | [], _ => rfl
  | (k, b) :: t, m => by
    have ih := Memory.read_write a t (Sparse.put Memory.unlisted m k b)
    have hp := Sparse.get_put (d := Memory.unlisted) k a b m
    show Memory.read (Memory.write (Sparse.put Memory.unlisted m k b) t) a = _
    rw [ih]
    simp only [lastWrite]
    cases ht : lastWrite t a with
    | some x => simp
    | none =>
      simp only [Memory.read, hp, Option.getD_none]
      by_cases hk : k = a
      · simp [hk]
      · have : ¬ a = k := fun h => hk h.symm
        simp [hk, this]

/-- A byte read after a range has been cleared. -/
theorem Memory.read_clear (lo hi a : Nat) : ∀ m : List Host.Cell,
    Memory.read (Memory.clear m lo hi) a = if lo ≤ a ∧ a < hi then Memory.unlisted else Memory.read m a
  | [] => by simp [Memory.clear, Memory.read, Sparse.get]
  | (i, b) :: t => by
    have ih := Memory.read_clear lo hi a t
    unfold Memory.clear Memory.read at ih ⊢
    rw [List.filter_cons]
    by_cases h : i < lo ∨ hi ≤ i
    · rw [if_pos (by simpa using h)]
      by_cases hi' : i = a
      · subst hi'
        have : ¬ (lo ≤ i ∧ i < hi) := by omega
        simp [Sparse.get, this]
      · simp only [Sparse.get, hi', if_false]; exact ih
    · rw [if_neg (by simpa using h), ih]
      by_cases hi' : i = a
      · subst hi'
        have : lo ≤ i ∧ i < hi := by omega
        simp [this]
      · simp [Sparse.get, hi']

end Sys2Proof.Machine
end

