-- ==== Sys2Proof/Laws/Kept.lean ====
section
/-! SUPPORT. Every operation of a wave, an engine, the scheduler or the fabric keeps what `Kept` names: one lemma each. -/

set_option Elab.async false

namespace Sys2Proof.Machine

theorem Kept.refl (s : State) : Kept s s := ⟨rfl, rfl, rfl, rfl, rfl, rfl, rfl, rfl, rfl, rfl, rfl, rfl, rfl, rfl, id⟩

/-- A change of the other fields. -/
theorem Kept.upd {s₀ u : State} (h : Kept s₀ u) {cur seq marks guardWrites poison ports ecc pinbyp assists outbox unsent tlb
    walks l1 l2 granuleCtx granuleLeft holders msgs deferred icache fetches mapCache contexts grids teams waves meres
    parcels admission pacHead pacDue polders ending events embargoes pool pendingLaunches staging couriers engines matrix
    offices remotes packets frames served} :
    Kept s₀ (State.mk u.agenda cur u.freeCtr seq marks guardWrites u.mem poison u.cycles u.deviceId u.lifecycle u.fwsvn
        u.boots u.boot u.pinBudget u.nocAvoid ports u.nocDown ecc pinbyp assists u.throttled outbox unsent u.signatures
        u.keyErased tlb walks l1 l2 granuleCtx granuleLeft holders msgs deferred icache fetches mapCache contexts grids
        teams waves meres parcels admission pacHead pacDue polders ending events embargoes pool pendingLaunches staging
        couriers engines matrix offices remotes packets frames served) :=
  ⟨h.cycles, h.deviceId, h.lifecycle, h.fwsvn, h.boots, h.boot, h.pinBudget, h.nocAvoid, h.nocDown, h.throttled,
      h.signatures, h.freeCtr, h.agenda, h.keyErased, h.mem⟩

theorem Kept.upd_iff {s₀ u : State} {cur seq marks guardWrites poison ports ecc pinbyp assists outbox unsent tlb walks l1 l2
    granuleCtx granuleLeft holders msgs deferred icache fetches mapCache contexts grids teams waves meres parcels admission
    pacHead pacDue polders ending events embargoes pool pendingLaunches staging couriers engines matrix offices remotes
    packets frames served} :
    Kept s₀ (State.mk u.agenda cur u.freeCtr seq marks guardWrites u.mem poison u.cycles u.deviceId u.lifecycle u.fwsvn
        u.boots u.boot u.pinBudget u.nocAvoid ports u.nocDown ecc pinbyp assists u.throttled outbox unsent u.signatures
        u.keyErased tlb walks l1 l2 granuleCtx granuleLeft holders msgs deferred icache fetches mapCache contexts grids
        teams waves meres parcels admission pacHead pacDue polders ending events embargoes pool pendingLaunches staging
        couriers engines matrix offices remotes packets frames served) ↔ Kept s₀ u :=
  ⟨fun h => ⟨h.cycles, h.deviceId, h.lifecycle, h.fwsvn, h.boots, h.boot, h.pinBudget, h.nocAvoid, h.nocDown, h.throttled,
      h.signatures, h.freeCtr, h.agenda, h.keyErased, h.mem⟩, fun h => h.upd⟩

theorem foldl_kept {α : Type} {s₀ : State} {f : State → α → State} (hf : ∀ u a, Kept s₀ u → Kept s₀ (f u a)) (l : List α) :
    ∀ s, Kept s₀ s → Kept s₀ (l.foldl f s) := by
  induction l with
  | nil => exact fun _ h => h
  | cons a t ih => exact fun s h => ih _ (hf s a h)

theorem foldl_kept' {α : Type} {s₀ : State} {f : State → α → State} {l : List α} {s : State} (h : Kept s₀ s) (hf : ∀ u a,
    Kept s₀ u → Kept s₀ (f u a)) :
    Kept s₀ (l.foldl f s) := foldl_kept hf l s h

theorem State.updTeam_kept {s₀ : State} {s : State} {uid} {f} (hk : Kept s₀ s) :
    Kept s₀ (State.updTeam s uid f) := by
  unfold State.updTeam
  repeat' (first | with_reducible assumption | (intro _) | with_reducible apply foldl_kept' | simp only [Kept.upd_iff]
                 | split | dsimp only)

theorem State.updThread_kept {s₀ : State} {s : State} {uid} {tid} {f} (hk : Kept s₀ s) :
    Kept s₀ (State.updThread s uid tid f) := by
  unfold State.updThread
  repeat' (first | with_reducible assumption | (intro _) | with_reducible apply State.updTeam_kept
                 | with_reducible apply foldl_kept' | simp only [Kept.upd_iff] | split | dsimp only)

theorem State.updThreads_kept {s₀ : State} {s : State} {uid} {tids} {f} (hk : Kept s₀ s) :
    Kept s₀ (State.updThreads s uid tids f) := by
  unfold State.updThreads
  repeat' (first | with_reducible assumption | (intro _) | with_reducible apply State.updTeam_kept
                 | with_reducible apply foldl_kept' | simp only [Kept.upd_iff] | split | dsimp only)

theorem State.updWave_kept {s₀ : State} {s : State} {wid} {f} (hk : Kept s₀ s) :
    Kept s₀ (State.updWave s wid f) := by
  unfold State.updWave
  repeat' (first | with_reducible assumption | (intro _) | with_reducible apply foldl_kept' | simp only [Kept.upd_iff]
                 | split | dsimp only)

theorem State.updCtx_kept {s₀ : State} {s : State} {num} {f} (hk : Kept s₀ s) :
    Kept s₀ (State.updCtx s num f) := by
  unfold State.updCtx
  repeat' (first | with_reducible assumption | (intro _) | with_reducible apply foldl_kept' | simp only [Kept.upd_iff]
                 | split | dsimp only)

theorem State.updGrid_kept {s₀ : State} {s : State} {gid} {f} (hk : Kept s₀ s) :
    Kept s₀ (State.updGrid s gid f) := by
  unfold State.updGrid
  repeat' (first | with_reducible assumption | (intro _) | with_reducible apply foldl_kept' | simp only [Kept.upd_iff]
                 | split | dsimp only)

theorem State.tick_kept {s₀ : State} {s : State} (hk : Kept s₀ s) :
    Kept s₀ (State.tick s) := by
  unfold State.tick
  repeat' (first | with_reducible assumption | (intro _) | with_reducible apply foldl_kept' | simp only [Kept.upd_iff]
                 | split | dsimp only)

theorem State.sendOut_kept {s₀ : State} {s : State} {o} (hk : Kept s₀ s) :
    Kept s₀ (State.sendOut s o) := by
  unfold State.sendOut
  repeat' (first | with_reducible assumption | (intro _) | with_reducible apply foldl_kept' | simp only [Kept.upd_iff]
                 | split | dsimp only)

theorem State.post_kept {s₀ : State} {s : State} {o} (hk : Kept s₀ s) :
    Kept s₀ (State.post s o) := by
  unfold State.post
  repeat' (first | with_reducible assumption | (intro _) | with_reducible apply State.sendOut_kept
                 | with_reducible apply foldl_kept' | simp only [Kept.upd_iff] | split | dsimp only)

theorem State.postUnsent_kept {s₀ : State} {s : State} {os} (hk : Kept s₀ s) :
    Kept s₀ (State.postUnsent s os) := by
  induction os generalizing s with
  | nil => exact hk
  | cons a l ih =>
    unfold State.postUnsent
    try dsimp only
    repeat' (first | with_reducible assumption | (intro _) | with_reducible apply ih
                   | with_reducible apply State.sendOut_kept | with_reducible apply foldl_kept' | simp only [Kept.upd_iff]
                   | split | dsimp only)

theorem State.heard_kept {s₀ : State} {s : State} {port} (hk : Kept s₀ s) :
    Kept s₀ (State.heard s port) := by
  unfold State.heard
  repeat' (first | with_reducible assumption | (intro _) | with_reducible apply foldl_kept' | simp only [Kept.upd_iff]
                 | split | dsimp only)

theorem State.noteAct_kept {s₀ : State} {s : State} {die} {k} {rank} (hk : Kept s₀ s) :
    Kept s₀ (State.noteAct s die k rank) := by
  unfold State.noteAct
  repeat' (first | with_reducible assumption | (intro _) | with_reducible apply foldl_kept' | simp only [Kept.upd_iff]
                 | split | dsimp only)

theorem State.takePlace_kept {s₀ : State} {s : State} {die} {k} {rank} (hk : Kept s₀ s) :
    Kept s₀ (State.takePlace s die k rank) := by
  unfold State.takePlace
  repeat' (first | with_reducible assumption | (intro _) | with_reducible apply State.noteAct_kept
                 | with_reducible apply foldl_kept' | simp only [Kept.upd_iff] | split | dsimp only)

theorem State.inTime_kept {s₀ : State} {s : State} {f : State → State} (hk : Kept s₀ s) (hf : ∀ y0, Kept s₀ y0 → Kept s₀ (f
    y0)) :
    Kept s₀ (State.inTime s f) := by
  unfold State.inTime
  repeat' (first | with_reducible assumption | (intro _) | with_reducible apply hf | with_reducible apply foldl_kept'
                 | split | dsimp only)

theorem State.pendAll_kept {s₀ : State} {s : State} {uid} {ws} (hk : Kept s₀ s) :
    Kept s₀ (State.pendAll s uid ws) := by
  induction ws generalizing s uid with
  | nil => exact hk
  | cons a l ih =>
    unfold State.pendAll
    rcases a with ⟨a1, a2⟩
    try dsimp only
    repeat' (first | with_reducible assumption | (intro _) | with_reducible apply ih
                   | with_reducible apply State.updThread_kept | with_reducible apply foldl_kept' | simp only [Kept.upd_iff]
                   | split | dsimp only)

theorem State.results_kept {s₀ : State} {s : State} {op} {uid} {ws} (hk : Kept s₀ s) :
    Kept s₀ (State.results s op uid ws) := by
  unfold State.results
  repeat' (first | with_reducible assumption | (intro _) | with_reducible apply State.pendAll_kept
                 | with_reducible apply State.updTeam_kept | with_reducible apply foldl_kept' | split | dsimp only)

theorem State.addWave_kept {s₀ : State} {s : State} {uid} {lanes} (hk : Kept s₀ s) :
    Kept s₀ (State.addWave s uid lanes) := by
  unfold State.addWave
  repeat' (first | with_reducible assumption | (intro _) | with_reducible apply foldl_kept' | simp only [Kept.upd_iff]
                 | split | dsimp only)

theorem State.leaveWave_kept {s₀ : State} {s : State} {wid} {tids} (hk : Kept s₀ s) :
    Kept s₀ (State.leaveWave s wid tids) := by
  unfold State.leaveWave
  repeat' (first | with_reducible assumption | (intro _) | with_reducible apply State.updWave_kept
                 | with_reducible apply foldl_kept' | simp only [Kept.upd_iff] | split | dsimp only)

theorem State.file_kept {s₀ : State} {s : State} {uid} {tid} {pc} (hk : Kept s₀ s) :
    Kept s₀ (State.file s uid tid pc) := by
  unfold State.file
  repeat' (first | with_reducible assumption | (intro _) | with_reducible apply State.updThread_kept
                 | with_reducible apply foldl_kept' | simp only [Kept.upd_iff] | split | dsimp only)

theorem State.wake_kept {s₀ : State} {s : State} {uid} {tid} (hk : Kept s₀ s) :
    Kept s₀ (State.wake s uid tid) := by
  unfold State.wake
  repeat' (first | with_reducible assumption | (intro _) | with_reducible apply State.updThread_kept
                 | with_reducible apply State.file_kept | with_reducible apply State.updTeam_kept
                 | with_reducible apply foldl_kept' | split | dsimp only)

theorem State.fileOne_kept {s₀ : State} {s : State} {t} {th} (hk : Kept s₀ s) :
    Kept s₀ (State.fileOne s t th) := by
  unfold State.fileOne
  repeat' (first | with_reducible assumption | (intro _) | with_reducible apply State.updThread_kept
                 | with_reducible apply foldl_kept' | simp only [Kept.upd_iff] | split | dsimp only)

theorem State.releaseMere_kept {s₀ : State} {s : State} {m} (hk : Kept s₀ s) :
    Kept s₀ (State.releaseMere s m) := by
  unfold State.releaseMere
  repeat' (first | with_reducible assumption | (intro _) | with_reducible apply State.addWave_kept
                 | with_reducible apply foldl_kept' | simp only [Kept.upd_iff] | split | dsimp only)

theorem releaseFull_kept {s₀ : State} {s : State} {ms} (hk : Kept s₀ s) :
    Kept s₀ (releaseFull s ms) := by
  induction ms generalizing s with
  | nil => exact hk
  | cons a l ih =>
    unfold releaseFull
    try dsimp only
    repeat' (first | with_reducible assumption | (intro _) | with_reducible apply ih
                   | with_reducible apply State.releaseMere_kept | with_reducible apply foldl_kept'
                   | simp only [Kept.upd_iff] | split | dsimp only)

theorem fileAll_kept {s₀ : State} {s : State} {ths} (hk : Kept s₀ s) :
    Kept s₀ (fileAll s ths) := by
  induction ths generalizing s with
  | nil => exact hk
  | cons a l ih =>
    unfold fileAll
    try dsimp only
    repeat' (first | with_reducible assumption | (intro _) | with_reducible apply ih
                   | with_reducible apply State.fileOne_kept | with_reducible apply foldl_kept' | simp only [Kept.upd_iff]
                   | split | dsimp only)

theorem State.reform_kept {s₀ : State} {s : State} {uid} {seat} (hk : Kept s₀ s) :
    Kept s₀ (State.reform s uid seat) := by
  unfold State.reform
  repeat' (first | with_reducible assumption | (intro _) | with_reducible apply State.addWave_kept
                 | with_reducible apply State.updThreads_kept | with_reducible apply foldl_kept' | split | dsimp only)

theorem reformAll_kept {s₀ : State} {s : State} {gs} (hk : Kept s₀ s) :
    Kept s₀ (reformAll s gs) := by
  induction gs generalizing s with
  | nil => exact hk
  | cons a l ih =>
    unfold reformAll
    rcases a with ⟨a1, a2, a3⟩
    try dsimp only
    repeat' (first | with_reducible assumption | (intro _) | with_reducible apply ih
                   | with_reducible apply State.reform_kept | with_reducible apply foldl_kept' | simp only [Kept.upd_iff]
                   | split | dsimp only)

theorem releaseAll_kept {s₀ : State} {s : State} {ms} (hk : Kept s₀ s) :
    Kept s₀ (releaseAll s ms) := by
  induction ms generalizing s with
  | nil => exact hk
  | cons a l ih =>
    unfold releaseAll
    try dsimp only
    repeat' (first | with_reducible assumption | (intro _) | with_reducible apply ih
                   | with_reducible apply State.releaseMere_kept | with_reducible apply foldl_kept'
                   | simp only [Kept.upd_iff] | split | dsimp only)

theorem State.releaseDue_kept {s₀ : State} {s : State} (hk : Kept s₀ s) :
    Kept s₀ (State.releaseDue s) := by
  unfold State.releaseDue
  repeat' (first | with_reducible assumption | (intro _) | with_reducible apply releaseAll_kept
                 | with_reducible apply foldl_kept' | simp only [Kept.upd_iff] | split | dsimp only)

theorem State.runMeres_kept {s₀ : State} {s : State} {dies} (hk : Kept s₀ s) :
    Kept s₀ (State.runMeres s dies) := by
  unfold State.runMeres
  repeat' (first | with_reducible assumption | (intro _) | with_reducible apply reformAll_kept
                 | with_reducible apply fileAll_kept | with_reducible apply releaseFull_kept
                 | with_reducible apply foldl_kept' | simp only [Kept.upd_iff] | split | dsimp only)

theorem State.stopWork_kept {s₀ : State} {s : State} {num} (hk : Kept s₀ s) :
    Kept s₀ (State.stopWork s num) := by
  unfold State.stopWork
  repeat' (first | with_reducible assumption | (intro _) | with_reducible apply foldl_kept' | simp only [Kept.upd_iff]
                 | split | dsimp only)

theorem State.kill_kept {s₀ : State} {s : State} {num} {r} {msg} (hk : Kept s₀ s) :
    Kept s₀ (State.kill s num r msg) := by
  unfold State.kill
  repeat' (first | with_reducible assumption | (intro _) | with_reducible apply State.post_kept
                 | with_reducible apply State.takePlace_kept | with_reducible apply State.stopWork_kept
                 | with_reducible apply State.updCtx_kept | with_reducible apply foldl_kept' | split | dsimp only)

theorem State.enterTrap_kept {s₀ : State} {s : State} {w} {t} {c} {pc} {cause} {infos} (hk : Kept s₀ s) :
    Kept s₀ (State.enterTrap s w t c pc cause infos) := by
  unfold State.enterTrap
  repeat' (first | with_reducible assumption | (intro _) | with_reducible apply State.kill_kept
                 | with_reducible apply State.updTeam_kept | with_reducible apply State.tick_kept
                 | with_reducible apply State.updWave_kept | with_reducible apply foldl_kept' | split | dsimp only)

theorem State.trapThis_kept {s₀ : State} {s : State} {w} {pc} {cause} {infos} (hk : Kept s₀ s) :
    Kept s₀ (State.trapThis s w pc cause infos) := by
  unfold State.trapThis
  repeat' (first | with_reducible assumption | (intro _) | with_reducible apply State.enterTrap_kept
                 | with_reducible apply State.updWave_kept | with_reducible apply foldl_kept' | simp only [Kept.upd_iff]
                 | split | dsimp only)

theorem State.trapWave_kept {s₀ : State} {s : State} {wid} {pc} {cause} {infos} (hk : Kept s₀ s) :
    Kept s₀ (State.trapWave s wid pc cause infos) := by
  unfold State.trapWave
  repeat' (first | with_reducible assumption | (intro _) | with_reducible apply State.trapThis_kept
                 | with_reducible apply foldl_kept' | simp only [Kept.upd_iff] | split | dsimp only)

theorem State.trapGroup_kept {s₀ : State} {s : State} {uid} {tids} {pc} {cause} {infos} (hk : Kept s₀ s) :
    Kept s₀ (State.trapGroup s uid tids pc cause infos) := by
  unfold State.trapGroup
  repeat' (first | with_reducible assumption | (intro _) | with_reducible apply State.updThreads_kept
                 | with_reducible apply State.trapThis_kept | with_reducible apply State.addWave_kept
                 | with_reducible apply foldl_kept' | simp only [Kept.upd_iff] | split | dsimp only)

theorem State.trapAlone_kept {s₀ : State} {s : State} {uid} {tid} {cause} {info} (hk : Kept s₀ s) :
    Kept s₀ (State.trapAlone s uid tid cause info) := by
  unfold State.trapAlone
  repeat' (first | with_reducible assumption | (intro _) | with_reducible apply State.updThread_kept
                 | with_reducible apply State.trapThis_kept | with_reducible apply State.addWave_kept
                 | with_reducible apply foldl_kept' | split | dsimp only)

theorem State.report_kept {s₀ : State} {s : State} {num} {r} (hk : Kept s₀ s) :
    Kept s₀ (State.report s num r) := by
  unfold State.report
  repeat' (first | with_reducible assumption | (intro _) | with_reducible apply State.updCtx_kept
                 | with_reducible apply State.kill_kept | with_reducible apply foldl_kept' | split | dsimp only)

theorem Issue.write_kept {s₀ : State} {x} {w} {val} {s : State} (hk : Kept s₀ s) :
    Kept s₀ (Issue.write x w val s) := by
  unfold Issue.write
  repeat' (first | with_reducible assumption | (intro _) | with_reducible apply State.results_kept
                 | with_reducible apply foldl_kept' | simp only [Kept.upd_iff] | split | dsimp only)

theorem Issue.writePred_kept {s₀ : State} {x} {val} {s : State} (hk : Kept s₀ s) :
    Kept s₀ (Issue.writePred x val s) := by
  unfold Issue.writePred
  repeat' (first | with_reducible assumption | (intro _) | with_reducible apply State.results_kept
                 | with_reducible apply foldl_kept' | simp only [Kept.upd_iff] | split | dsimp only)

theorem Issue.block_kept {s₀ : State} {x} {tid} {w} {s : State} (hk : Kept s₀ s) :
    Kept s₀ (Issue.block x tid w s) := by
  unfold Issue.block
  repeat' (first | with_reducible assumption | (intro _) | with_reducible apply State.updThread_kept
                 | with_reducible apply State.leaveWave_kept | with_reducible apply foldl_kept' | split | dsimp only)

theorem Issue.blockRelease_kept {s₀ : State} {x} {tid} {sc} {s : State} (hk : Kept s₀ s) :
    Kept s₀ (Issue.blockRelease x tid sc s) := by
  unfold Issue.blockRelease
  repeat' (first | with_reducible assumption | (intro _) | with_reducible apply Issue.block_kept
                 | with_reducible apply foldl_kept' | simp only [Kept.upd_iff] | split | dsimp only)

theorem State.addParts_kept {s₀ : State} {s : State} {w} {groups} (hk : Kept s₀ s) :
    Kept s₀ (State.addParts s w groups) := by
  induction groups generalizing s w with
  | nil => exact hk
  | cons a l ih =>
    unfold State.addParts
    try dsimp only
    repeat' (first | with_reducible assumption | (intro _) | with_reducible apply ih | with_reducible apply foldl_kept'
                   | simp only [Kept.upd_iff] | split | dsimp only)

theorem State.divide_kept {α : Type} [DecidableEq α] {s₀ s : State} {wid} {key : Nat → α} (hk : Kept s₀ s) :
    Kept s₀ (s.divide wid key) := by
  unfold State.divide
  repeat' (first | assumption | apply State.addParts_kept | apply State.updWave_kept | split | dsimp only)

theorem State.mark_kept {s₀ : State} {s : State} {uid} {tids} {wids} (hk : Kept s₀ s) :
    Kept s₀ (State.mark s uid tids wids) := by
  unfold State.mark
  repeat' (first | with_reducible assumption | (intro _) | with_reducible apply State.updTeam_kept
                 | with_reducible apply foldl_kept' | simp only [Kept.upd_iff] | split | dsimp only)

theorem Issue.advance_kept {s₀ : State} {x} {next} {s : State} (hk : Kept s₀ s) :
    Kept s₀ (Issue.advance x next s) := by
  unfold Issue.advance
  repeat' (first | with_reducible assumption | (intro _) | with_reducible apply State.updThreads_kept
                 | with_reducible apply State.divide_kept | with_reducible apply State.mark_kept
                 | with_reducible apply State.tick_kept | with_reducible apply State.updWave_kept
                 | with_reducible apply foldl_kept' | split | dsimp only)

theorem plain_kept {s₀ : State} {f : Issue → State → State} {x} {s : State} (hf : ∀ y0 y1, Kept s₀ y1 → Kept s₀ (f y0 y1))
    (hk : Kept s₀ s) :
    Kept s₀ (plain f x s).1 := by
  unfold plain
  repeat' (first | with_reducible assumption | (intro _) | with_reducible apply hf | with_reducible apply foldl_kept'
                 | simp only [Kept.upd_iff] | split | dsimp only)

theorem computes_kept {s₀ : State} {w} {val} {x} {s : State} (hk : Kept s₀ s) :
    Kept s₀ (computes w val x s).1 := by
  unfold computes
  repeat' (first | with_reducible assumption | (intro _) | with_reducible apply Issue.write_kept
                 | with_reducible apply foldl_kept' | simp only [Kept.upd_iff] | split | dsimp only)

theorem computesPred_kept {s₀ : State} {val} {x} {s : State} (hk : Kept s₀ s) :
    Kept s₀ (computesPred val x s).1 := by
  unfold computesPred
  repeat' (first | with_reducible assumption | (intro _) | with_reducible apply Issue.writePred_kept
                 | with_reducible apply foldl_kept' | simp only [Kept.upd_iff] | split | dsimp only)

theorem unlessRaised_kept {s₀ : State} {cause} {check} {body : Issue → State → State × Out} {x} {s : State} (hf : ∀ y0 y1,
    Kept s₀ y1 → Kept s₀ (body y0 y1).1) (hk : Kept s₀ s) :
    Kept s₀ (unlessRaised cause check body x s).1 := by
  unfold unlessRaised
  repeat' (first | with_reducible assumption | (intro _) | with_reducible apply hf | with_reducible apply foldl_kept'
                 | simp only [Kept.upd_iff] | split | dsimp only)

theorem intOp_kept {s₀ : State} {val} {x} {s : State} (hk : Kept s₀ s) :
    Kept s₀ (intOp val x s).1 := by
  unfold intOp
  repeat' (first | with_reducible assumption | (intro _) | with_reducible apply Issue.write_kept
                 | with_reducible apply foldl_kept' | simp only [Kept.upd_iff] | split | dsimp only)

theorem bitOp_kept {s₀ : State} {val} {x} {s : State} (hk : Kept s₀ s) :
    Kept s₀ (bitOp val x s).1 := by
  unfold bitOp
  repeat' (first | with_reducible assumption | (intro _) | with_reducible apply Issue.write_kept
                 | with_reducible apply foldl_kept' | simp only [Kept.upd_iff] | split | dsimp only)

theorem iselBody_kept {s₀ : State} {x} {s : State} (hk : Kept s₀ s) :
    Kept s₀ (iselBody x s).1 := by
  unfold iselBody
  repeat' (first | with_reducible assumption | (intro _) | with_reducible apply State.results_kept
                 | with_reducible apply foldl_kept' | simp only [Kept.upd_iff] | split | dsimp only)

theorem floatOp_kept {s₀ : State} {val} {x} {s : State} (hk : Kept s₀ s) :
    Kept s₀ (floatOp val x s).1 := by
  unfold floatOp
  repeat' (first | with_reducible assumption | (intro _) | with_reducible apply Issue.write_kept
                 | with_reducible apply foldl_kept' | simp only [Kept.upd_iff] | split | dsimp only)

theorem packedOp_kept {s₀ : State} {val} {x} {s : State} (hk : Kept s₀ s) :
    Kept s₀ (packedOp val x s).1 := by
  unfold packedOp
  repeat' (first | with_reducible assumption | (intro _) | with_reducible apply Issue.write_kept
                 | with_reducible apply foldl_kept' | simp only [Kept.upd_iff] | split | dsimp only)

theorem dotOp_kept {s₀ : State} {n} {x} {s : State} (hk : Kept s₀ s) :
    Kept s₀ (dotOp n x s).1 := by
  unfold dotOp
  repeat' (first | with_reducible assumption | (intro _) | with_reducible apply Issue.write_kept
                 | with_reducible apply foldl_kept' | simp only [Kept.upd_iff] | split | dsimp only)

theorem sfuOp_kept {s₀ : State} {x} {s : State} (hk : Kept s₀ s) :
    Kept s₀ (sfuOp x s).1 := by
  unfold sfuOp
  repeat' (first | with_reducible assumption | (intro _) | with_reducible apply Issue.write_kept
                 | with_reducible apply foldl_kept' | simp only [Kept.upd_iff] | split | dsimp only)

theorem afterReleaseOf_kept {s₀ : State} {who} {sc} {body : Issue → State → State × Out} {x} {s : State} (hf : ∀ y0 y1, Kept
    s₀ y1 → Kept s₀ (body y0 y1).1) (hk : Kept s₀ s) :
    Kept s₀ (afterReleaseOf who sc body x s).1 := by
  unfold afterReleaseOf
  repeat' (first | with_reducible assumption | (intro _) | with_reducible apply hf | with_reducible apply State.tick_kept
                 | with_reducible apply State.updWave_kept | with_reducible apply Issue.blockRelease_kept
                 | with_reducible apply foldl_kept' | split | dsimp only)

theorem afterRelease_kept {s₀ : State} {sc} {b1 : Issue → State → State × Out} {b2} {b3 : State} (hf : ∀ y0 y1, Kept s₀ y1 →
    Kept s₀ (b1 y0 y1).1) (hk : Kept s₀ b3) :
    Kept s₀ (afterRelease sc b1 b2 b3).1 := by
  unfold afterRelease
  repeat' (first | with_reducible assumption | (intro _) | with_reducible apply hf
                 | with_reducible apply afterReleaseOf_kept | with_reducible apply foldl_kept' | simp only [Kept.upd_iff]
                 | split | dsimp only)

theorem whenReady_kept {s₀ : State} {ready} {body : Issue → State → State × Out} {x} {s : State} (hf : ∀ y0 y1, Kept s₀ y1 →
    Kept s₀ (body y0 y1).1) (hk : Kept s₀ s) :
    Kept s₀ (whenReady ready body x s).1 := by
  unfold whenReady
  repeat' (first | with_reducible assumption | (intro _) | with_reducible apply hf | with_reducible apply foldl_kept'
                 | simp only [Kept.upd_iff] | split | dsimp only)

theorem State.flash_kept {s₀ : State} {s : State} {cluster} (hk : Kept s₀ s) :
    Kept s₀ (State.flash s cluster) := by
  unfold State.flash
  repeat' (first | with_reducible assumption | (intro _) | with_reducible apply State.takePlace_kept
                 | with_reducible apply foldl_kept' | simp only [Kept.upd_iff] | split | dsimp only)

theorem State.dropLines_kept {s₀ : State} {s : State} {cluster} {hit} (hk : Kept s₀ s) :
    Kept s₀ (State.dropLines s cluster hit) := by
  unfold State.dropLines
  repeat' (first | with_reducible assumption | (intro _) | with_reducible apply foldl_kept' | simp only [Kept.upd_iff]
                 | split | dsimp only)

theorem State.acquire_kept {s₀ : State} {s : State} {sc} {t} (hk : Kept s₀ s) :
    Kept s₀ (State.acquire s sc t) := by
  unfold State.acquire
  repeat' (first | with_reducible assumption | (intro _) | with_reducible apply State.flash_kept
                 | with_reducible apply foldl_kept' | simp only [Kept.upd_iff] | split | dsimp only)

theorem State.fill_kept {s₀ : State} {s : State} {u} {ctx} {va} {l} (hk : Kept s₀ s) :
    Kept s₀ (State.fill s u ctx va l) := by
  unfold State.fill
  repeat' (first | with_reducible assumption | (intro _) | with_reducible apply foldl_kept' | simp only [Kept.upd_iff]
                 | split | dsimp only)

theorem State.fillParts_kept {s₀ : State} {s : State} {u} {ctx} {ps} (hk : Kept s₀ s) :
    Kept s₀ (State.fillParts s u ctx ps) := by
  unfold State.fillParts
  repeat' (first | with_reducible assumption | (intro _) | with_reducible apply State.fill_kept
                 | with_reducible apply foldl_kept' | simp only [Kept.upd_iff] | split | dsimp only)

theorem State.perform_kept {s₀ s : State} {bs} (hk : Kept s₀ s) : Kept s₀ (s.perform bs) :=
  ⟨hk.cycles, hk.deviceId, hk.lifecycle, hk.fwsvn, hk.boots, hk.boot, hk.pinBudget, hk.nocAvoid, hk.nocDown, hk.throttled,
   hk.signatures, hk.freeCtr, hk.agenda, hk.keyErased, fun w => Memory.write_wf _ _ (hk.mem w)⟩

theorem State.writeVa_kept {s₀ : State} {s : State} {u} {ctx} {va} {bs} (hk : Kept s₀ s) :
    Kept s₀ (State.writeVa s u ctx va bs) := by
  unfold State.writeVa
  repeat' (first | with_reducible assumption | (intro _) | with_reducible apply State.perform_kept
                 | with_reducible apply foldl_kept' | simp only [Kept.upd_iff] | split | dsimp only)

theorem State.useCopy_kept {s₀ : State} {s : State} {cluster} {line} (hk : Kept s₀ s) :
    Kept s₀ (State.useCopy s cluster line) := by
  unfold State.useCopy
  repeat' (first | with_reducible assumption | (intro _) | with_reducible apply foldl_kept' | simp only [Kept.upd_iff]
                 | split | dsimp only)

theorem State.acceptBytes_kept {s₀ : State} {s : State} {cluster} {line} {bs} (hk : Kept s₀ s) :
    Kept s₀ (State.acceptBytes s cluster line bs) := by
  unfold State.acceptBytes
  repeat' (first | with_reducible assumption | (intro _) | with_reducible apply foldl_kept' | simp only [Kept.upd_iff]
                 | split | dsimp only)

theorem State.send_kept {s₀ : State} {s : State} {d} {line} {k} (hk : Kept s₀ s) :
    Kept s₀ (State.send s d line k) := by
  unfold State.send
  repeat' (first | with_reducible assumption | (intro _) | with_reducible apply foldl_kept' | simp only [Kept.upd_iff]
                 | split | dsimp only)

theorem State.acceptStore_kept {s₀ : State} {s : State} {d} {line} {bs} {early} (hk : Kept s₀ s) :
    Kept s₀ (State.acceptStore s d line bs early) := by
  unfold State.acceptStore
  repeat' (first | with_reducible assumption | (intro _) | with_reducible apply State.send_kept
                 | with_reducible apply State.useCopy_kept | with_reducible apply State.acceptBytes_kept
                 | with_reducible apply foldl_kept' | simp only [Kept.upd_iff] | split | dsimp only)

theorem State.store_kept {s₀ : State} {s : State} {d} {polder} {early} {cells} (hk : Kept s₀ s) :
    Kept s₀ (State.store s d polder early cells) := by
  unfold State.store
  repeat' (first | with_reducible assumption | (intro _) | with_reducible apply State.send_kept
                 | with_reducible apply foldl_kept' | simp only [Kept.upd_iff] | split | dsimp only)

theorem State.missRead_kept {s₀ : State} {s : State} {d} {w} (hk : Kept s₀ s) :
    Kept s₀ (State.missRead s d w) := by
  unfold State.missRead
  repeat' (first | with_reducible assumption | (intro _) | with_reducible apply State.send_kept
                 | with_reducible apply foldl_kept' | simp only [Kept.upd_iff] | split | dsimp only)

theorem State.homeRead_kept {s₀ : State} {s : State} {d} {w} (hk : Kept s₀ s) :
    Kept s₀ (State.homeRead s d w) := by
  unfold State.homeRead
  repeat' (first | with_reducible assumption | (intro _) | with_reducible apply State.send_kept
                 | with_reducible apply State.dropLines_kept | with_reducible apply foldl_kept' | simp only [Kept.upd_iff]
                 | split | dsimp only)

theorem State.bind_kept {s₀ : State} {s : State} {uid} {tid} {pend} {first} {bs} (hk : Kept s₀ s) :
    Kept s₀ (State.bind s uid tid pend first bs) := by
  unfold State.bind
  repeat' (first | with_reducible assumption | (intro _) | with_reducible apply State.updThread_kept
                 | with_reducible apply foldl_kept' | simp only [Kept.upd_iff] | split | dsimp only)

theorem State.refusePart_kept {s₀ : State} {s : State} {uid} {tid} {pend} (hk : Kept s₀ s) :
    Kept s₀ (State.refusePart s uid tid pend) := by
  unfold State.refusePart
  repeat' (first | with_reducible assumption | (intro _) | with_reducible apply State.updThread_kept
                 | with_reducible apply foldl_kept' | simp only [Kept.upd_iff] | split | dsimp only)

theorem State.noteRefusal_kept {s₀ : State} {s : State} {uid} {tid} {info} (hk : Kept s₀ s) :
    Kept s₀ (State.noteRefusal s uid tid info) := by
  unfold State.noteRefusal
  repeat' (first | with_reducible assumption | (intro _) | with_reducible apply foldl_kept' | simp only [Kept.upd_iff]
                 | split | dsimp only)

theorem State.killPoisoned_kept {s₀ : State} {s : State} {ctx} {va} (hk : Kept s₀ s) :
    Kept s₀ (State.killPoisoned s ctx va) := by
  unfold State.killPoisoned
  repeat' (first | with_reducible assumption | (intro _) | with_reducible apply State.kill_kept
                 | with_reducible apply foldl_kept' | simp only [Kept.upd_iff] | split | dsimp only)

theorem State.heldAtomic_kept {s₀ : State} {s : State} {d} {a} {pend} (hk : Kept s₀ s) :
    Kept s₀ (State.heldAtomic s d a pend) := by
  unfold State.heldAtomic
  repeat' (first | with_reducible assumption | (intro _) | with_reducible apply State.killPoisoned_kept
                 | with_reducible apply State.bind_kept | with_reducible apply State.acceptStore_kept
                 | with_reducible apply foldl_kept' | split | dsimp only)

theorem State.askGrant_kept {s₀ : State} {s : State} {d} {line} (hk : Kept s₀ s) :
    Kept s₀ (State.askGrant s d line) := by
  unfold State.askGrant
  repeat' (first | with_reducible assumption | (intro _) | with_reducible apply State.send_kept
                 | with_reducible apply foldl_kept' | simp only [Kept.upd_iff] | split | dsimp only)

theorem State.l1Atomic_kept {s₀ : State} {s : State} {d} {a} {pend} (hk : Kept s₀ s) :
    Kept s₀ (State.l1Atomic s d a pend) := by
  unfold State.l1Atomic
  repeat' (first | with_reducible assumption | (intro _) | with_reducible apply State.heldAtomic_kept
                 | with_reducible apply State.askGrant_kept | with_reducible apply State.send_kept
                 | with_reducible apply foldl_kept' | split | dsimp only)

theorem State.runQueued_kept {s₀ : State} {s : State} {ms} (hk : Kept s₀ s) :
    Kept s₀ (State.runQueued s ms) := by
  induction ms generalizing s with
  | nil => exact hk
  | cons a l ih =>
    unfold State.runQueued
    try dsimp only
    repeat' (first | with_reducible assumption | (intro _) | with_reducible apply ih
                   | with_reducible apply State.heldAtomic_kept | with_reducible apply foldl_kept'
                   | simp only [Kept.upd_iff] | split | dsimp only)

theorem State.giveUp_kept {s₀ : State} {s : State} {cluster} {line} (hk : Kept s₀ s) :
    Kept s₀ (State.giveUp s cluster line) := by
  unfold State.giveUp
  repeat' (first | with_reducible assumption | (intro _) | with_reducible apply State.send_kept
                 | with_reducible apply foldl_kept' | simp only [Kept.upd_iff] | split | dsimp only)

theorem State.dropCopies_kept {s₀ : State} {s : State} {cs} (hk : Kept s₀ s) :
    Kept s₀ (State.dropCopies s cs) := by
  induction cs generalizing s with
  | nil => exact hk
  | cons a l ih =>
    unfold State.dropCopies
    try dsimp only
    repeat' (first | with_reducible assumption | (intro _) | with_reducible apply ih
                   | with_reducible apply State.giveUp_kept | with_reducible apply foldl_kept' | simp only [Kept.upd_iff]
                   | split | dsimp only)

theorem State.l1Way_kept {s₀ : State} {s : State} {cluster} {line} (hk : Kept s₀ s) :
    Kept s₀ (State.l1Way s cluster line).1 := by
  unfold State.l1Way
  repeat' (first | with_reducible assumption | (intro _) | with_reducible apply State.dropCopies_kept
                 | with_reducible apply foldl_kept' | split | dsimp only)

theorem State.takeGrant_kept {s₀ : State} {s : State} {m} {d} {ov} (hk : Kept s₀ s) :
    Kept s₀ (State.takeGrant s m d ov) := by
  unfold State.takeGrant
  repeat' (first | with_reducible assumption | (intro _) | with_reducible apply State.l1Way_kept
                 | with_reducible apply State.runQueued_kept | with_reducible apply foldl_kept' | simp only [Kept.upd_iff]
                 | split | dsimp only)

theorem State.setMsg_kept {s₀ : State} {s : State} {id} {k} (hk : Kept s₀ s) :
    Kept s₀ (State.setMsg s id k) := by
  unfold State.setMsg
  repeat' (first | with_reducible assumption | (intro _) | with_reducible apply foldl_kept' | simp only [Kept.upd_iff]
                 | split | dsimp only)

theorem State.dropMsg_kept {s₀ : State} {s : State} {id} (hk : Kept s₀ s) :
    Kept s₀ (State.dropMsg s id) := by
  unfold State.dropMsg
  repeat' (first | with_reducible assumption | (intro _) | with_reducible apply foldl_kept' | simp only [Kept.upd_iff]
                 | split | dsimp only)

theorem State.acceptMsg_kept {s₀ : State} {s : State} {id} (hk : Kept s₀ s) :
    Kept s₀ (State.acceptMsg s id) := by
  unfold State.acceptMsg
  repeat' (first | with_reducible assumption | (intro _) | with_reducible apply State.acceptStore_kept
                 | with_reducible apply State.dropMsg_kept | with_reducible apply State.bind_kept
                 | with_reducible apply State.useCopy_kept | with_reducible apply State.missRead_kept
                 | with_reducible apply foldl_kept' | simp only [Kept.upd_iff] | split | dsimp only)

theorem State.countBypass_kept {s₀ : State} {s : State} {line} (hk : Kept s₀ s) :
    Kept s₀ (State.countBypass s line) := by
  unfold State.countBypass
  repeat' (first | with_reducible assumption | (intro _) | with_reducible apply foldl_kept' | simp only [Kept.upd_iff]
                 | split | dsimp only)

theorem State.markL2_kept {s₀ : State} {s : State} {line} {filled} {written} (hk : Kept s₀ s) :
    Kept s₀ (State.markL2 s line filled written) := by
  unfold State.markL2
  repeat' (first | with_reducible assumption | (intro _) | with_reducible apply foldl_kept' | simp only [Kept.upd_iff]
                 | split | dsimp only)

theorem State.performWrite_kept {s₀ : State} {s : State} {m} {bs} {early} (hk : Kept s₀ s) :
    Kept s₀ (State.performWrite s m bs early) := by
  unfold State.performWrite
  repeat' (first | with_reducible assumption | (intro _) | with_reducible apply State.setMsg_kept
                 | with_reducible apply State.markL2_kept | with_reducible apply State.perform_kept
                 | with_reducible apply foldl_kept' | simp only [Kept.upd_iff] | split | dsimp only)

theorem State.endHold_kept {s₀ : State} {s : State} {line} (hk : Kept s₀ s) :
    Kept s₀ (State.endHold s line) := by
  unfold State.endHold
  repeat' (first | with_reducible assumption | (intro _) | with_reducible apply State.takeGrant_kept
                 | with_reducible apply State.performWrite_kept | with_reducible apply State.dropMsg_kept
                 | with_reducible apply foldl_kept' | simp only [Kept.upd_iff] | split | dsimp only)

theorem State.performRead_kept {s₀ : State} {s : State} {m} {sector} {alloc} {ov} {ws} (hk : Kept s₀ s) :
    Kept s₀ (State.performRead s m sector alloc ov ws) := by
  unfold State.performRead
  repeat' (first | with_reducible assumption | (intro _) | with_reducible apply State.setMsg_kept
                 | with_reducible apply State.dropMsg_kept | with_reducible apply State.killPoisoned_kept
                 | with_reducible apply foldl_kept' | split | dsimp only)

theorem State.performBy_kept {s₀ : State} {use : State → Nat → BitVec 4 → BitVec 128 → State} {s : State} {m} (hf : ∀ y0 y1
    y2 y3, Kept s₀ y0 → Kept s₀ (use y0 y1 y2 y3)) (hk : Kept s₀ s) :
    Kept s₀ (State.performBy use s m) := by
  unfold State.performBy
  repeat' (first | with_reducible assumption | (intro _) | with_reducible apply hf | with_reducible apply State.dropMsg_kept
                 | with_reducible apply State.dropLines_kept | with_reducible apply State.countBypass_kept
                 | with_reducible apply State.performRead_kept | with_reducible apply State.setMsg_kept
                 | with_reducible apply State.performWrite_kept | with_reducible apply State.killPoisoned_kept
                 | with_reducible apply State.perform_kept | with_reducible apply foldl_kept' | simp only [Kept.upd_iff]
                 | split | dsimp only)

theorem State.finishHeld_kept {s₀ : State} {use : State → Nat → BitVec 4 → BitVec 128 → State} {s : State} {line} {ms} (hf :
    ∀ y0 y1 y2 y3, Kept s₀ y0 → Kept s₀ (use y0 y1 y2 y3)) (hk : Kept s₀ s) :
    Kept s₀ (State.finishHeld use s line ms) := by
  induction ms generalizing s line with
  | nil => exact State.endHold_kept hk
  | cons a l ih =>
    unfold State.finishHeld
    try dsimp only
    repeat' (first | with_reducible assumption | (intro _) | with_reducible apply ih | with_reducible apply hf
                   | with_reducible apply State.endHold_kept | with_reducible apply State.performBy_kept
                   | with_reducible apply foldl_kept' | simp only [Kept.upd_iff] | split | dsimp only)

theorem State.recallNow_kept {s₀ : State} {use : State → Nat → BitVec 4 → BitVec 128 → State} {s : State} {line} (hf : ∀ y0
    y1 y2 y3, Kept s₀ y0 → Kept s₀ (use y0 y1 y2 y3)) (hk : Kept s₀ s) :
    Kept s₀ (State.recallNow use s line) := by
  unfold State.recallNow
  repeat' (first | with_reducible assumption | (intro _) | with_reducible apply hf
                 | with_reducible apply State.finishHeld_kept | with_reducible apply State.endHold_kept
                 | with_reducible apply foldl_kept' | simp only [Kept.upd_iff] | split | dsimp only)

theorem State.touchL2_kept {s₀ : State} {s : State} {line} {filled} {written} (hk : Kept s₀ s) :
    Kept s₀ (State.touchL2 s line filled written) := by
  unfold State.touchL2
  repeat' (first | with_reducible assumption | (intro _) | with_reducible apply State.markL2_kept
                 | with_reducible apply foldl_kept' | simp only [Kept.upd_iff] | split | dsimp only)

theorem State.makeRoom_kept {s₀ : State} {s : State} {line} {pin} (hk : Kept s₀ s) :
    Kept s₀ (State.makeRoom s line pin) := by
  unfold State.makeRoom
  repeat' (first | with_reducible assumption | (intro _) | with_reducible apply State.recallNow_kept
                 | with_reducible apply State.touchL2_kept | with_reducible apply State.noteAct_kept
                 | with_reducible apply foldl_kept' | simp only [Kept.upd_iff] | split | dsimp only)

theorem State.useL2_kept {s₀ : State} {s : State} {line} {filled} {written} (hk : Kept s₀ s) :
    Kept s₀ (State.useL2 s line filled written) := by
  unfold State.useL2
  repeat' (first | with_reducible assumption | (intro _) | with_reducible apply State.markL2_kept
                 | with_reducible apply State.makeRoom_kept | with_reducible apply foldl_kept' | simp only [Kept.upd_iff]
                 | split | dsimp only)

theorem State.pinL2_kept {s₀ : State} {s : State} {line} (hk : Kept s₀ s) :
    Kept s₀ (State.pinL2 s line) := by
  unfold State.pinL2
  repeat' (first | with_reducible assumption | (intro _) | with_reducible apply State.makeRoom_kept
                 | with_reducible apply foldl_kept' | simp only [Kept.upd_iff] | split | dsimp only)

theorem State.performMsg_kept {s₀ : State} {s : State} {m} (hk : Kept s₀ s) :
    Kept s₀ (State.performMsg s m) := by
  unfold State.performMsg
  repeat' (first | with_reducible assumption | (intro _) | with_reducible apply State.performBy_kept
                 | with_reducible apply State.useL2_kept | with_reducible apply foldl_kept' | simp only [Kept.upd_iff]
                 | split | dsimp only)

theorem State.forceRecall_kept {s₀ : State} {s : State} {line} (hk : Kept s₀ s) :
    Kept s₀ (State.forceRecall s line) := by
  unfold State.forceRecall
  repeat' (first | with_reducible assumption | (intro _) | with_reducible apply State.recallNow_kept
                 | with_reducible apply State.useL2_kept | with_reducible apply foldl_kept' | simp only [Kept.upd_iff]
                 | split | dsimp only)

theorem State.demandLines_kept {s₀ : State} {s : State} {addr} {n} {lines} (hk : Kept s₀ s) :
    Kept s₀ (State.demandLines s addr n lines) := by
  induction lines generalizing s addr n with
  | nil => exact hk
  | cons a l ih =>
    unfold State.demandLines
    try dsimp only
    repeat' (first | with_reducible assumption | (intro _) | with_reducible apply ih | with_reducible apply State.useL2_kept
                   | with_reducible apply State.countBypass_kept | with_reducible apply foldl_kept'
                   | simp only [Kept.upd_iff] | split | dsimp only)

theorem State.demandRead_kept {s₀ : State} {s : State} {addr} {n} (hk : Kept s₀ s) :
    Kept s₀ (State.demandRead s addr n) := by
  unfold State.demandRead
  repeat' (first | with_reducible assumption | (intro _) | with_reducible apply State.demandLines_kept
                 | with_reducible apply foldl_kept' | simp only [Kept.upd_iff] | split | dsimp only)

theorem State.demandVa_kept {s₀ : State} {s : State} {u} {ctx} {va} {n} (hk : Kept s₀ s) :
    Kept s₀ (State.demandVa s u ctx va n) := by
  unfold State.demandVa
  repeat' (first | with_reducible assumption | (intro _) | with_reducible apply State.demandRead_kept
                 | with_reducible apply foldl_kept' | simp only [Kept.upd_iff] | split | dsimp only)

theorem State.recallLine_kept {s₀ : State} {s : State} {line} {holder} (hk : Kept s₀ s) :
    Kept s₀ (State.recallLine s line holder) := by
  unfold State.recallLine
  repeat' (first | with_reducible assumption | (intro _) | with_reducible apply State.send_kept
                 | with_reducible apply foldl_kept' | simp only [Kept.upd_iff] | split | dsimp only)

theorem State.arrive_kept {s₀ : State} {s : State} {m} (hk : Kept s₀ s) :
    Kept s₀ (State.arrive s m) := by
  unfold State.arrive
  repeat' (first | with_reducible assumption | (intro _) | with_reducible apply State.performMsg_kept
                 | with_reducible apply State.recallLine_kept | with_reducible apply foldl_kept' | simp only [Kept.upd_iff]
                 | split | dsimp only)

theorem State.performHeld_kept {s₀ : State} {s : State} {line} {ms} (hk : Kept s₀ s) :
    Kept s₀ (State.performHeld s line ms) := by
  induction ms generalizing s line with
  | nil => exact hk
  | cons a l ih =>
    unfold State.performHeld
    try dsimp only
    repeat' (first | with_reducible assumption | (intro _) | with_reducible apply ih
                   | with_reducible apply State.recallLine_kept | with_reducible apply State.performMsg_kept
                   | with_reducible apply foldl_kept' | simp only [Kept.upd_iff] | split | dsimp only)

theorem State.released_kept {s₀ : State} {s : State} {m} (hk : Kept s₀ s) :
    Kept s₀ (State.released s m) := by
  unfold State.released
  repeat' (first | with_reducible assumption | (intro _) | with_reducible apply State.dropMsg_kept
                 | with_reducible apply State.performHeld_kept | with_reducible apply foldl_kept' | simp only [Kept.upd_iff]
                 | split | dsimp only)

theorem State.homeLine_kept {s₀ : State} {s : State} {cells} {line} (hk : Kept s₀ s) :
    Kept s₀ (State.homeLine s cells line) := by
  unfold State.homeLine
  repeat' (first | with_reducible assumption | (intro _) | with_reducible apply State.useL2_kept
                 | with_reducible apply State.countBypass_kept | with_reducible apply State.forceRecall_kept
                 | with_reducible apply foldl_kept' | simp only [Kept.upd_iff] | split | dsimp only)

theorem State.homeWrite_kept {s₀ : State} {s : State} {cells} (hk : Kept s₀ s) :
    Kept s₀ (State.homeWrite s cells) := by
  unfold State.homeWrite
  repeat' (first | with_reducible assumption | (intro _) | with_reducible apply State.perform_kept
                 | with_reducible apply State.homeLine_kept | with_reducible apply foldl_kept' | simp only [Kept.upd_iff]
                 | split | dsimp only)

theorem memChecked_kept {s₀ : State} {body : Issue → State → State × Out} {b1} {b2 : State} (hf : ∀ y0 y1, Kept s₀ y1 → Kept
    s₀ (body y0 y1).1) (hk : Kept s₀ b2) :
    Kept s₀ (memChecked body b1 b2).1 := by
  unfold memChecked
  repeat' (first | with_reducible assumption | (intro _) | with_reducible apply hf | with_reducible apply unlessRaised_kept
                 | with_reducible apply foldl_kept' | simp only [Kept.upd_iff] | split | dsimp only)

theorem nacksFirst_kept {s₀ : State} {body : Issue → State → State × Out} {x} {s : State} (hf : ∀ y0 y1, Kept s₀ y1 → Kept
    s₀ (body y0 y1).1) (hk : Kept s₀ s) :
    Kept s₀ (nacksFirst body x s).1 := by
  unfold nacksFirst
  repeat' (first | with_reducible assumption | (intro _) | with_reducible apply hf | with_reducible apply foldl_kept'
                 | split | dsimp only)

theorem Issue.fillTlb_kept {s₀ : State} {x} {s : State} (hk : Kept s₀ s) :
    Kept s₀ (Issue.fillTlb x s) := by
  unfold Issue.fillTlb
  repeat' (first | with_reducible assumption | (intro _) | with_reducible apply State.fillParts_kept
                 | with_reducible apply foldl_kept' | simp only [Kept.upd_iff] | split | dsimp only)

theorem Issue.park_kept {s₀ : State} {x} {p} {s : State} (hk : Kept s₀ s) :
    Kept s₀ (Issue.park x p s) := by
  unfold Issue.park
  repeat' (first | with_reducible assumption | (intro _) | with_reducible apply State.updWave_kept
                 | with_reducible apply foldl_kept' | simp only [Kept.upd_iff] | split | dsimp only)

theorem Issue.settle_kept {s₀ : State} {x} {ids} {acq} {s : State} (hk : Kept s₀ s) :
    Kept s₀ (Issue.settle x ids acq s) := by
  unfold Issue.settle
  repeat' (first | with_reducible assumption | (intro _) | with_reducible apply Issue.park_kept
                 | with_reducible apply State.acquire_kept | with_reducible apply foldl_kept' | split | dsimp only)

theorem Issue.loadPiece_kept {s₀ : State} {x} {lt} {id} {p} {s : State} (hk : Kept s₀ s) :
    Kept s₀ (Issue.loadPiece x lt id p s) := by
  unfold Issue.loadPiece
  repeat' (first | with_reducible assumption | (intro _) | with_reducible apply State.homeRead_kept
                 | with_reducible apply State.send_kept | with_reducible apply State.missRead_kept
                 | with_reducible apply foldl_kept' | split | dsimp only)

theorem Issue.loadOne_kept {s₀ : State} {x} {lt} {s : State} (hk : Kept s₀ s) :
    Kept s₀ (Issue.loadOne x lt s) := by
  unfold Issue.loadOne
  repeat' (first | with_reducible assumption | (intro _) | with_reducible apply State.tick_kept
                 | with_reducible apply State.updThread_kept | with_reducible apply Issue.loadPiece_kept
                 | with_reducible apply foldl_kept' | simp only [Kept.upd_iff] | split | dsimp only)

theorem accessAll_kept {s₀ : State} {one : Nat × Thread → State → State} {lts} {s : State} (hf : ∀ y0 y1, Kept s₀ y1 → Kept
    s₀ (one y0 y1)) (hk : Kept s₀ s) :
    Kept s₀ (accessAll one lts s).1 := by
  induction lts generalizing s with
  | nil => (unfold accessAll; repeat' (first | with_reducible assumption | (intro _) | with_reducible apply ih
                                             | with_reducible apply hf | with_reducible apply foldl_kept'
                                             | simp only [Kept.upd_iff] | split | dsimp only))
  | cons a l ih =>
    unfold accessAll
    try dsimp only
    repeat' (first | with_reducible assumption | (intro _) | with_reducible apply ih | with_reducible apply hf
                   | with_reducible apply foldl_kept' | simp only [Kept.upd_iff] | split | dsimp only)

theorem Issue.split_kept {s₀ : State} {x} {miss} {ids} {s : State} (hk : Kept s₀ s) :
    Kept s₀ (Issue.split x miss ids s) := by
  unfold Issue.split
  repeat' (first | with_reducible assumption | (intro _) | with_reducible apply State.leaveWave_kept
                 | with_reducible apply Issue.advance_kept | with_reducible apply State.updThreads_kept
                 | with_reducible apply foldl_kept' | simp only [Kept.upd_iff] | split | dsimp only)

theorem loadGlobal_kept {s₀ : State} {x} {s : State} (hk : Kept s₀ s) :
    Kept s₀ (loadGlobal x s).1 := by
  unfold loadGlobal
  repeat' (first | with_reducible assumption | (intro _) | with_reducible apply accessAll_kept
                 | with_reducible apply Issue.loadOne_kept | with_reducible apply Issue.fillTlb_kept
                 | with_reducible apply Issue.split_kept | with_reducible apply Issue.settle_kept
                 | with_reducible apply foldl_kept' | split | dsimp only)

theorem loadNear_kept {s₀ : State} {val} {x} {s : State} (hk : Kept s₀ s) :
    Kept s₀ (loadNear val x s).1 := by
  unfold loadNear
  repeat' (first | with_reducible assumption | (intro _) | with_reducible apply Issue.write_kept
                 | with_reducible apply State.acquire_kept | with_reducible apply foldl_kept' | split | dsimp only)

theorem loadBody_kept {s₀ : State} {x} {s : State} (hk : Kept s₀ s) :
    Kept s₀ (loadBody x s).1 := by
  unfold loadBody
  repeat' (first | with_reducible assumption | (intro _) | with_reducible apply loadGlobal_kept
                 | with_reducible apply loadNear_kept | with_reducible apply foldl_kept' | simp only [Kept.upd_iff] | split
                 | dsimp only)

theorem Issue.storeOne_kept {s₀ : State} {x} {lt} {s : State} (hk : Kept s₀ s) :
    Kept s₀ (Issue.storeOne x lt s) := by
  unfold Issue.storeOne
  repeat' (first | with_reducible assumption | (intro _) | with_reducible apply State.store_kept
                 | with_reducible apply State.tick_kept | with_reducible apply foldl_kept' | simp only [Kept.upd_iff]
                 | split | dsimp only)

theorem State.homeAtomic_kept {s₀ : State} {s : State} {d} {a} {pend} (hk : Kept s₀ s) :
    Kept s₀ (State.homeAtomic s d a pend) := by
  unfold State.homeAtomic
  repeat' (first | with_reducible assumption | (intro _) | with_reducible apply State.send_kept
                 | with_reducible apply State.dropLines_kept | with_reducible apply foldl_kept' | simp only [Kept.upd_iff]
                 | split | dsimp only)

theorem Issue.pendAtomic_kept {s₀ : State} {x} {lt} {s : State} (hk : Kept s₀ s) :
    Kept s₀ (Issue.pendAtomic x lt s) := by
  unfold Issue.pendAtomic
  repeat' (first | with_reducible assumption | (intro _) | with_reducible apply State.tick_kept
                 | with_reducible apply State.updThread_kept | with_reducible apply foldl_kept' | split | dsimp only)

theorem Issue.atomicOne_kept {s₀ : State} {x} {lt} {s : State} (hk : Kept s₀ s) :
    Kept s₀ (Issue.atomicOne x lt s) := by
  unfold Issue.atomicOne
  repeat' (first | with_reducible assumption | (intro _) | with_reducible apply State.l1Atomic_kept
                 | with_reducible apply Issue.pendAtomic_kept | with_reducible apply State.homeAtomic_kept
                 | with_reducible apply State.tick_kept | with_reducible apply foldl_kept' | split | dsimp only)

theorem Issue.localOne_kept {s₀ : State} {x} {lt} {s : State} (hk : Kept s₀ s) :
    Kept s₀ (Issue.localOne x lt s) := by
  unfold Issue.localOne
  repeat' (first | with_reducible assumption | (intro _) | with_reducible apply State.tick_kept
                 | with_reducible apply State.updTeam_kept | with_reducible apply Issue.pendAtomic_kept
                 | with_reducible apply State.bind_kept | with_reducible apply foldl_kept' | split | dsimp only)

theorem Issue.writeOne_kept {s₀ : State} {x} {lt} {s : State} (hk : Kept s₀ s) :
    Kept s₀ (Issue.writeOne x lt s) := by
  unfold Issue.writeOne
  repeat' (first | with_reducible assumption | (intro _) | with_reducible apply Issue.localOne_kept
                 | with_reducible apply Issue.storeOne_kept | with_reducible apply Issue.atomicOne_kept
                 | with_reducible apply foldl_kept' | simp only [Kept.upd_iff] | split | dsimp only)

theorem Issue.deferOne_kept {s₀ : State} {x} {since} {lt} {s : State} (hk : Kept s₀ s) :
    Kept s₀ (Issue.deferOne x since lt s) := by
  unfold Issue.deferOne
  repeat' (first | with_reducible assumption | (intro _) | with_reducible apply State.tick_kept
                 | with_reducible apply Issue.pendAtomic_kept | with_reducible apply foldl_kept' | simp only [Kept.upd_iff]
                 | split | dsimp only)

theorem writeBody_kept {s₀ : State} {x} {s : State} (hk : Kept s₀ s) :
    Kept s₀ (writeBody x s).1 := by
  unfold writeBody
  repeat' (first | with_reducible assumption | (intro _) | with_reducible apply accessAll_kept
                 | with_reducible apply Issue.deferOne_kept | with_reducible apply State.tick_kept
                 | with_reducible apply Issue.fillTlb_kept | with_reducible apply Issue.settle_kept
                 | with_reducible apply Issue.writeOne_kept | with_reducible apply foldl_kept' | split | dsimp only)

theorem releaseReports_kept {s₀ : State} {body : Issue → State → State × Out} {x} {s : State} (hf : ∀ y0 y1, Kept s₀ y1 →
    Kept s₀ (body y0 y1).1) (hk : Kept s₀ s) :
    Kept s₀ (releaseReports body x s).1 := by
  unfold releaseReports
  repeat' (first | with_reducible assumption | (intro _) | with_reducible apply hf | with_reducible apply nacksFirst_kept
                 | with_reducible apply foldl_kept' | simp only [Kept.upd_iff] | split | dsimp only)

theorem State.performDeferred_kept {s₀ : State} {s : State} {d} (hk : Kept s₀ s) :
    Kept s₀ (State.performDeferred s d) := by
  unfold State.performDeferred
  repeat' (first | with_reducible assumption | (intro _) | with_reducible apply State.updTeam_kept
                 | with_reducible apply State.store_kept | with_reducible apply State.bind_kept
                 | with_reducible apply State.homeAtomic_kept | with_reducible apply State.l1Atomic_kept
                 | with_reducible apply foldl_kept' | simp only [Kept.upd_iff] | split | dsimp only)

theorem State.rangeAcquire_kept {s₀ : State} {s : State} {u} {cluster} {ctx} {lo} {hi} (hk : Kept s₀ s) :
    Kept s₀ (State.rangeAcquire s u cluster ctx lo hi) := by
  unfold State.rangeAcquire
  repeat' (first | with_reducible assumption | (intro _) | with_reducible apply State.flash_kept
                 | with_reducible apply State.dropLines_kept | with_reducible apply foldl_kept' | simp only [Kept.upd_iff]
                 | split | dsimp only)

theorem fenceBody_kept {s₀ : State} {x} {s : State} (hk : Kept s₀ s) :
    Kept s₀ (fenceBody x s).1 := by
  unfold fenceBody
  repeat' (first | with_reducible assumption | (intro _) | with_reducible apply State.acquire_kept
                 | with_reducible apply State.tick_kept | with_reducible apply State.updWave_kept
                 | with_reducible apply foldl_kept' | split | dsimp only)

theorem fenceReports_kept {s₀ : State} {body : Issue → State → State × Out} {x} {s : State} (hf : ∀ y0 y1, Kept s₀ y1 → Kept
    s₀ (body y0 y1).1) (hk : Kept s₀ s) :
    Kept s₀ (fenceReports body x s).1 := by
  unfold fenceReports
  repeat' (first | with_reducible assumption | (intro _) | with_reducible apply hf | with_reducible apply nacksFirst_kept
                 | with_reducible apply foldl_kept' | simp only [Kept.upd_iff] | split | dsimp only)

theorem Issue.fencerOne_kept {s₀ : State} {x} {s : State} {lt} (hk : Kept s₀ s) :
    Kept s₀ (Issue.fencerOne x s lt) := by
  unfold Issue.fencerOne
  repeat' (first | with_reducible assumption | (intro _) | with_reducible apply State.tick_kept
                 | with_reducible apply State.updThread_kept | with_reducible apply foldl_kept' | simp only [Kept.upd_iff]
                 | split | dsimp only)

theorem State.retireFence_kept {s₀ : State} {s : State} {t} {th} {f} (hk : Kept s₀ s) :
    Kept s₀ (State.retireFence s t th f) := by
  unfold State.retireFence
  repeat' (first | with_reducible assumption | (intro _) | with_reducible apply State.updThread_kept
                 | with_reducible apply State.rangeAcquire_kept | with_reducible apply foldl_kept' | split | dsimp only)

theorem Issue.prefetch_kept {s₀ : State} {x} {s : State} {lt} (hk : Kept s₀ s) :
    Kept s₀ (Issue.prefetch x s lt) := by
  unfold Issue.prefetch
  repeat' (first | with_reducible assumption | (intro _) | with_reducible apply State.fill_kept
                 | with_reducible apply State.send_kept | with_reducible apply State.useL2_kept
                 | with_reducible apply foldl_kept' | split | dsimp only)

theorem State.stgetGive_kept {s₀ : State} {s : State} {uid} {tid} {d} {i} (hk : Kept s₀ s) :
    Kept s₀ (State.stgetGive s uid tid d i) := by
  unfold State.stgetGive
  repeat' (first | with_reducible assumption | (intro _) | with_reducible apply State.updThread_kept
                 | with_reducible apply State.pendAll_kept | with_reducible apply foldl_kept' | simp only [Kept.upd_iff]
                 | split | dsimp only)

theorem State.stget_kept {s₀ s t : State} {uid tid d} (hk : Kept s₀ s) : s.stget uid tid d = some t → Kept s₀ t := by
  unfold State.stget
  intro ht
  split at ht
  · contradiction
  · split at ht
    · contradiction
    · obtain ⟨r, _, rfl⟩ := Option.map_eq_some_iff.mp ht
      exact State.stgetGive_kept (State.updTeam_kept hk)

theorem State.dropIteration_kept {s₀ : State} {s : State} {uid} {tid} (hk : Kept s₀ s) :
    Kept s₀ (State.dropIteration s uid tid) := by
  unfold State.dropIteration
  repeat' (first | with_reducible assumption | (intro _) | with_reducible apply State.pendAll_kept
                 | with_reducible apply State.updThread_kept | with_reducible apply foldl_kept' | simp only [Kept.upd_iff]
                 | split | dsimp only)

theorem stloopAll_kept {s₀ : State} {x} {lts} {s : State} (hk : Kept s₀ s) :
    Kept s₀ (stloopAll x lts s).1 := by
  induction lts generalizing x s with
  | nil => (unfold stloopAll; repeat' (first | with_reducible assumption | (intro _) | with_reducible apply ih
                                             | with_reducible apply State.updThread_kept
                                             | with_reducible apply Issue.block_kept
                                             | with_reducible apply State.updTeam_kept | with_reducible apply foldl_kept'
                                             | simp only [Kept.upd_iff] | split | dsimp only))
  | cons a l ih =>
    unfold stloopAll
    try dsimp only
    repeat' (first | with_reducible assumption | (intro _) | with_reducible apply ih
                   | with_reducible apply State.updThread_kept | with_reducible apply Issue.block_kept
                   | with_reducible apply State.updTeam_kept | with_reducible apply foldl_kept' | simp only [Kept.upd_iff]
                   | split | dsimp only)

theorem stloopBody_kept {s₀ : State} {x} {s : State} (hk : Kept s₀ s) :
    Kept s₀ (stloopBody x s).1 := by
  unfold stloopBody
  repeat' (first | with_reducible assumption | (intro _) | with_reducible apply stloopAll_kept
                 | with_reducible apply foldl_kept' | split | dsimp only)

theorem State.stageWait_kept {s₀ : State} {s : State} {x} {lts} {op} {thenGet} (hk : Kept s₀ s) :
    Kept s₀ (State.stageWait s x lts op thenGet) := by
  unfold State.stageWait
  repeat' (first | with_reducible assumption | (intro _) | with_reducible apply Issue.block_kept
                 | with_reducible apply foldl_kept' | simp only [Kept.upd_iff] | split | dsimp only)

theorem State.stageApply_kept {s₀ : State} {s : State} {uid} {i} {op} (hk : Kept s₀ s) :
    Kept s₀ (State.stageApply s uid i op) := by
  unfold State.stageApply
  repeat' (first | with_reducible assumption | (intro _) | with_reducible apply State.updTeam_kept
                 | with_reducible apply foldl_kept' | simp only [Kept.upd_iff] | split | dsimp only)

theorem State.stageOne_kept {s₀ : State} {s : State} {uid} {lt} {op} (hk : Kept s₀ s) :
    Kept s₀ (State.stageOne s uid lt op) := by
  unfold State.stageOne
  repeat' (first | with_reducible assumption | (intro _) | with_reducible apply State.pendAll_kept
                 | with_reducible apply State.stageApply_kept | with_reducible apply State.dropIteration_kept
                 | with_reducible apply foldl_kept' | split | dsimp only)

theorem stageEffect_kept {s₀ : State} {op} {b1} {b2 : State} (hk : Kept s₀ b2) :
    Kept s₀ (stageEffect op b1 b2).1 := by
  unfold stageEffect
  repeat' (first | with_reducible assumption | (intro _) | with_reducible apply afterRelease_kept
                 | with_reducible apply State.stageWait_kept | with_reducible apply State.stageOne_kept
                 | with_reducible apply foldl_kept' | simp only [Kept.upd_iff] | split | dsimp only)

theorem waitlBody_kept {s₀ : State} {x} {s : State} (hk : Kept s₀ s) :
    Kept s₀ (waitlBody x s).1 := by
  unfold waitlBody
  repeat' (first | with_reducible assumption | (intro _) | with_reducible apply Issue.block_kept
                 | with_reducible apply foldl_kept' | simp only [Kept.upd_iff] | split | dsimp only)

theorem stgetOne_kept {s₀ : State} {x} {lt} {s : State} (hk : Kept s₀ s) :
    Kept s₀ (stgetOne x lt s) := by
  unfold stgetOne
  repeat' (first | with_reducible assumption | (intro _) | with_reducible apply Issue.block_kept
                 | with_reducible apply State.pendAll_kept | with_reducible apply State.updThread_kept
                 | with_reducible apply State.stageApply_kept | with_reducible refine State.stget_kept ?_ (by assumption)
                 | with_reducible apply foldl_kept' | split | dsimp only)

theorem stgetAll_kept {s₀ : State} {b0} {b1 : State} (hk : Kept s₀ b1) :
    Kept s₀ (stgetAll b0 b1).1 := by
  unfold stgetAll
  repeat' (first | with_reducible assumption | (intro _) | with_reducible apply afterReleaseOf_kept
                 | with_reducible apply stgetOne_kept | with_reducible apply foldl_kept' | simp only [Kept.upd_iff] | split
                 | dsimp only)

theorem State.settleStloop_kept {s₀ : State} {s : State} {t} {th} {n} {w} {hw} (hk : Kept s₀ s) :
    Kept s₀ (State.settleStloop s t th n w hw) := by
  unfold State.settleStloop
  repeat' (first | with_reducible assumption | (intro _) | with_reducible apply State.wake_kept
                 | with_reducible apply State.updTeam_kept | with_reducible apply State.trapAlone_kept
                 | with_reducible apply State.updThread_kept | with_reducible apply foldl_kept' | simp only [Kept.upd_iff]
                 | split | dsimp only)

theorem State.settleStget_kept {s₀ : State} {s : State} {uid} {tid} {d} (hk : Kept s₀ s) :
    Kept s₀ (State.settleStget s uid tid d) := by
  unfold State.settleStget
  repeat' (first | with_reducible assumption | (intro _) | with_reducible refine State.stget_kept ?_ (by assumption)
                 | with_reducible apply State.wake_kept | with_reducible apply foldl_kept' | simp only [Kept.upd_iff]
                 | split | dsimp only)

theorem State.stagePass_kept {s₀ : State} {s : State} {uid} {op} {before} {th} (hk : Kept s₀ s) :
    Kept s₀ (State.stagePass s uid op before th) := by
  unfold State.stagePass
  repeat' (first | with_reducible assumption | (intro _) | with_reducible apply State.pendAll_kept
                 | with_reducible apply State.settleStget_kept | with_reducible apply State.updThread_kept
                 | with_reducible apply State.wake_kept | with_reducible apply State.dropIteration_kept
                 | with_reducible apply foldl_kept' | split | dsimp only)

theorem State.trapByPc_kept {s₀ : State} {s : State} {uid} {cause} {pcs} {ths} {info} (hk : Kept s₀ s) :
    Kept s₀ (State.trapByPc s uid cause pcs ths info) := by
  induction pcs generalizing s uid cause ths info with
  | nil => exact hk
  | cons a l ih =>
    unfold State.trapByPc
    try dsimp only
    repeat' (first | with_reducible assumption | (intro _) | with_reducible apply ih
                   | with_reducible apply State.trapGroup_kept | with_reducible apply foldl_kept' | simp only [Kept.upd_iff]
                   | split | dsimp only)

theorem State.settleHolder_kept {s₀ : State} {s : State} {uid} {hw} (hk : Kept s₀ s) :
    Kept s₀ (State.settleHolder s uid hw) := by
  unfold State.settleHolder
  repeat' (first | with_reducible assumption | (intro _) | with_reducible apply State.stagePass_kept
                 | with_reducible apply State.stageApply_kept | with_reducible apply State.trapByPc_kept
                 | with_reducible apply foldl_kept' | split | dsimp only)

theorem branchBody_kept {s₀ : State} {target} {x} {s : State} (hk : Kept s₀ s) :
    Kept s₀ (branchBody target x s).1 := by
  unfold branchBody
  repeat' (first | with_reducible assumption | (intro _) | with_reducible apply foldl_kept' | simp only [Kept.upd_iff]
                 | split | dsimp only)

theorem callBody_kept {s₀ : State} {target} {x} {s : State} (hk : Kept s₀ s) :
    Kept s₀ (callBody target x s).1 := by
  unfold callBody
  repeat' (first | with_reducible assumption | (intro _) | with_reducible apply State.updThreads_kept
                 | with_reducible apply foldl_kept' | simp only [Kept.upd_iff] | split | dsimp only)

theorem Issue.exitOne_kept {s₀ : State} {x} {s : State} {lt} (hk : Kept s₀ s) :
    Kept s₀ (Issue.exitOne x s lt) := by
  unfold Issue.exitOne
  repeat' (first | with_reducible assumption | (intro _) | with_reducible apply State.updTeam_kept
                 | with_reducible apply State.leaveWave_kept | with_reducible apply foldl_kept' | simp only [Kept.upd_iff]
                 | split | dsimp only)

theorem exitBody_kept {s₀ : State} {b0} {b1 : State} (hk : Kept s₀ b1) :
    Kept s₀ (exitBody b0 b1).1 := by
  unfold exitBody
  repeat' (first | with_reducible assumption | (intro _) | with_reducible apply afterRelease_kept
                 | with_reducible apply Issue.exitOne_kept | with_reducible apply foldl_kept' | simp only [Kept.upd_iff]
                 | split | dsimp only)

theorem retBody_kept {s₀ : State} {x} {s : State} (hk : Kept s₀ s) :
    Kept s₀ (retBody x s).1 := by
  unfold retBody
  repeat' (first | with_reducible assumption | (intro _) | with_reducible apply State.updThreads_kept
                 | with_reducible apply exitBody_kept | with_reducible apply foldl_kept' | split | dsimp only)

theorem reformBody_kept {s₀ : State} {x} {s : State} (hk : Kept s₀ s) :
    Kept s₀ (reformBody x s).1 := by
  unfold reformBody
  repeat' (first | with_reducible assumption | (intro _) | with_reducible apply State.updThread_kept
                 | with_reducible apply Issue.block_kept | with_reducible apply State.wake_kept
                 | with_reducible apply foldl_kept' | simp only [Kept.upd_iff] | split | dsimp only)

theorem pauseBody_kept {s₀ : State} {x} {s : State} (hk : Kept s₀ s) :
    Kept s₀ (pauseBody x s).1 := by
  unfold pauseBody
  repeat' (first | with_reducible assumption | (intro _) | with_reducible apply Issue.block_kept
                 | with_reducible apply foldl_kept' | split | dsimp only)

theorem swregBody_kept {s₀ : State} {x} {s : State} (hk : Kept s₀ s) :
    Kept s₀ (swregBody x s).1 := by
  unfold swregBody
  repeat' (first | with_reducible assumption | (intro _) | with_reducible apply State.updThread_kept
                 | with_reducible apply foldl_kept' | simp only [Kept.upd_iff] | split | dsimp only)

theorem State.goHome_kept {s₀ : State} {s : State} {uid} {ths} {next} (hk : Kept s₀ s) :
    Kept s₀ (State.goHome s uid ths next) := by
  unfold State.goHome
  repeat' (first | with_reducible assumption | (intro _) | with_reducible apply State.addWave_kept
                 | with_reducible apply State.updThreads_kept | with_reducible apply State.updTeam_kept
                 | with_reducible apply State.updWave_kept | with_reducible apply foldl_kept' | split | dsimp only)

theorem State.goHomeAll_kept {s₀ : State} {s : State} {uid} {keys} {ths} (hk : Kept s₀ s) :
    Kept s₀ (State.goHomeAll s uid keys ths) := by
  induction keys generalizing s uid ths with
  | nil => exact hk
  | cons a l ih =>
    unfold State.goHomeAll
    try dsimp only
    repeat' (first | with_reducible assumption | (intro _) | with_reducible apply ih
                   | with_reducible apply State.goHome_kept | with_reducible apply foldl_kept' | simp only [Kept.upd_iff]
                   | split | dsimp only)

theorem State.releaseHome_kept {s₀ : State} {s : State} {uid} {ths} (hk : Kept s₀ s) :
    Kept s₀ (State.releaseHome s uid ths) := by
  unfold State.releaseHome
  repeat' (first | with_reducible assumption | (intro _) | with_reducible apply State.goHomeAll_kept
                 | with_reducible apply foldl_kept' | simp only [Kept.upd_iff] | split | dsimp only)

theorem Issue.arriveOne_kept {s₀ : State} {x} {stay} {s : State} {lt} (hk : Kept s₀ s) :
    Kept s₀ (Issue.arriveOne x stay s lt) := by
  unfold Issue.arriveOne
  repeat' (first | with_reducible assumption | (intro _) | with_reducible apply Issue.block_kept
                 | with_reducible apply State.updTeam_kept | with_reducible apply foldl_kept' | split | dsimp only)

theorem barBody_kept {s₀ : State} {stay} {b1} {b2 : State} (hk : Kept s₀ b2) :
    Kept s₀ (barBody stay b1 b2).1 := by
  unfold barBody
  repeat' (first | with_reducible assumption | (intro _) | with_reducible apply afterRelease_kept
                 | with_reducible apply Issue.arriveOne_kept | with_reducible apply foldl_kept' | simp only [Kept.upd_iff]
                 | split | dsimp only)

theorem barwBody_kept {s₀ : State} {x} {s : State} (hk : Kept s₀ s) :
    Kept s₀ (barwBody x s).1 := by
  unfold barwBody
  repeat' (first | with_reducible assumption | (intro _) | with_reducible apply Issue.block_kept
                 | with_reducible apply foldl_kept' | simp only [Kept.upd_iff] | split | dsimp only)

theorem State.rearrive_kept {s₀ : State} {s : State} {uid} {ths} (hk : Kept s₀ s) :
    Kept s₀ (State.rearrive s uid ths) := by
  induction ths generalizing s uid with
  | nil => exact hk
  | cons a l ih =>
    unfold State.rearrive
    try dsimp only
    repeat' (first | with_reducible assumption | (intro _) | with_reducible apply ih
                   | with_reducible apply State.updTeam_kept | with_reducible apply State.updThread_kept
                   | with_reducible apply State.wake_kept | with_reducible apply foldl_kept' | simp only [Kept.upd_iff]
                   | split | dsimp only)

theorem State.settleBarriers_kept {s₀ : State} {s : State} {uid} (hk : Kept s₀ s) :
    Kept s₀ (State.settleBarriers s uid) := by
  unfold State.settleBarriers
  repeat' (first | with_reducible assumption | (intro _) | with_reducible apply State.updTeam_kept
                 | with_reducible apply State.rearrive_kept | with_reducible apply State.releaseHome_kept
                 | with_reducible apply foldl_kept' | split | dsimp only)

theorem State.settleReconv_kept {s₀ : State} {s : State} {uid} {hws} (hk : Kept s₀ s) :
    Kept s₀ (State.settleReconv s uid hws) := by
  induction hws generalizing s uid with
  | nil => exact hk
  | cons a l ih =>
    unfold State.settleReconv
    try dsimp only
    repeat' (first | with_reducible assumption | (intro _) | with_reducible apply ih
                   | with_reducible apply State.releaseHome_kept | with_reducible apply foldl_kept'
                   | simp only [Kept.upd_iff] | split | dsimp only)

theorem State.barrierUnreachable_kept {s₀ : State} {s : State} {uid} (hk : Kept s₀ s) :
    Kept s₀ (State.barrierUnreachable s uid) := by
  unfold State.barrierUnreachable
  repeat' (first | with_reducible assumption | (intro _) | with_reducible apply State.trapGroup_kept
                 | with_reducible apply foldl_kept' | split | dsimp only)

theorem State.setEvBits_kept {s₀ : State} {s : State} {cluster} {ctx} {v} (hk : Kept s₀ s) :
    Kept s₀ (State.setEvBits s cluster ctx v) := by
  unfold State.setEvBits
  repeat' (first | with_reducible assumption | (intro _) | with_reducible apply foldl_kept' | simp only [Kept.upd_iff]
                 | split | dsimp only)

theorem Issue.updEvents_kept {s₀ : State} {x} {s : State} {g} (hk : Kept s₀ s) :
    Kept s₀ (Issue.updEvents x s g) := by
  unfold Issue.updEvents
  repeat' (first | with_reducible assumption | (intro _) | with_reducible apply State.setEvBits_kept
                 | with_reducible apply foldl_kept' | simp only [Kept.upd_iff] | split | dsimp only)

theorem evsetBody_kept {s₀ : State} {b0} {b1 : State} (hk : Kept s₀ b1) :
    Kept s₀ (evsetBody b0 b1).1 := by
  unfold evsetBody
  repeat' (first | with_reducible assumption | (intro _) | with_reducible apply afterRelease_kept
                 | with_reducible apply Issue.updEvents_kept | with_reducible apply foldl_kept' | simp only [Kept.upd_iff]
                 | split | dsimp only)

theorem State.enter_kept {s₀ : State} {s : State} {r} (hk : Kept s₀ s) :
    Kept s₀ (State.enter s r) := by
  unfold State.enter
  repeat' (first | with_reducible assumption | (intro _) | with_reducible apply foldl_kept' | simp only [Kept.upd_iff]
                 | split | dsimp only)

theorem State.writeRing_kept {s₀ s t : State} {r} (hk : Kept s₀ s) : s.writeRing r = .written t → Kept s₀ t := by
  unfold State.writeRing
  intro ht
  repeat' (first | assumption | contradiction | (split at ht) | (simp only [RingWrite.written.injEq] at ht)
                 | (dsimp only at ht) | (subst ht) | apply State.updCtx_kept | apply State.homeWrite_kept)

theorem State.stage_kept {s₀ s t : State} {r info w} (hk : Kept s₀ s) : s.stage r info = .placed t w → Kept s₀ t := by
  unfold State.stage
  intro ht
  split at ht
  · obtain ⟨rfl, _⟩ := Posted.placed.inj ht
    exact State.report_kept (Kept.upd hk)
  · contradiction

theorem State.deadLetter_kept {s₀ s t : State} {r w} (hk : Kept s₀ s) : s.deadLetter r = .placed t w → Kept s₀ t := by
  unfold State.deadLetter
  intro ht
  split at ht
  · split at ht
    · contradiction
    · obtain ⟨rfl, _⟩ := Posted.placed.inj ht
      exact hk
  · exact State.stage_kept hk ht
  · next h =>
    obtain ⟨rfl, _⟩ := Posted.placed.inj ht
    exact State.writeRing_kept hk h

theorem State.startTask_kept {s₀ : State} {s : State} {uid} {tid} {k} (hk : Kept s₀ s) :
    Kept s₀ (State.startTask s uid tid k) := by
  unfold State.startTask
  repeat' (first | with_reducible assumption | (intro _) | with_reducible apply State.updTeam_kept
                 | with_reducible apply State.updThread_kept | with_reducible apply foldl_kept' | simp only [Kept.upd_iff]
                 | split | dsimp only)

theorem State.gatherFor_kept {s₀ : State} {s : State} {t} {entry} (hk : Kept s₀ s) :
    Kept s₀ (State.gatherFor s t entry) := by
  unfold State.gatherFor
  repeat' (first | with_reducible assumption | (intro _) | with_reducible apply State.noteAct_kept
                 | with_reducible apply State.setEvBits_kept | with_reducible apply State.startTask_kept
                 | with_reducible apply State.acquire_kept | with_reducible apply State.addWave_kept
                 | with_reducible apply foldl_kept' | simp only [Kept.upd_iff] | split | dsimp only)

theorem State.formWave_kept {s₀ : State} {s : State} {cluster} (hk : Kept s₀ s) :
    Kept s₀ (State.formWave s cluster) := by
  unfold State.formWave
  repeat' (first | with_reducible assumption | (intro _) | with_reducible apply State.gatherFor_kept
                 | with_reducible apply foldl_kept' | simp only [Kept.upd_iff] | split | dsimp only)

theorem State.gather_kept {s₀ : State} {s : State} {cluster} (hk : Kept s₀ s) :
    Kept s₀ (State.gather s cluster) := by
  unfold State.gather
  repeat' (first | with_reducible assumption | (intro _) | with_reducible apply State.noteAct_kept
                 | with_reducible apply State.formWave_kept | with_reducible apply foldl_kept' | simp only [Kept.upd_iff]
                 | split | dsimp only)

theorem State.postRecord_kept {s₀ s t : State} {r w} (hk : Kept s₀ s) : s.postRecord r = .placed t w → Kept s₀ t := by
  have hg : Kept s₀ (if r.launch || s.roomFor r then s else s.gather r.cluster) := by
    split
    · exact hk
    · exact State.gather_kept hk
  unfold State.postRecord
  intro ht
  generalize (if r.launch || s.roomFor r then s else s.gather r.cluster) = u at hg ht
  dsimp only at ht
  split at ht
  · obtain ⟨rfl, _⟩ := Posted.placed.inj ht
    exact State.enter_kept hg
  · exact State.deadLetter_kept hg ht

theorem recordChecked_kept {s₀ : State} {body : Issue → State → State × Out} {b1} {b2 : State} (hf : ∀ y0 y1, Kept s₀ y1 →
    Kept s₀ (body y0 y1).1) (hk : Kept s₀ b2) :
    Kept s₀ (recordChecked body b1 b2).1 := by
  unfold recordChecked
  repeat' (first | with_reducible assumption | (intro _) | with_reducible apply hf | with_reducible apply unlessRaised_kept
                 | with_reducible apply foldl_kept' | simp only [Kept.upd_iff] | split | dsimp only)

theorem State.give_kept {s₀ : State} {s : State} {uid} {tid} {d} {w} {val} (hk : Kept s₀ s) :
    Kept s₀ (State.give s uid tid d w val) := by
  unfold State.give
  repeat' (first | with_reducible assumption | (intro _) | with_reducible apply State.pendAll_kept
                 | with_reducible apply foldl_kept' | simp only [Kept.upd_iff] | split | dsimp only)

theorem Issue.give_kept {s₀ : State} {x} {lt} {w} {val} {s : State} (hk : Kept s₀ s) :
    Kept s₀ (Issue.give x lt w val s) := by
  unfold Issue.give
  repeat' (first | with_reducible assumption | (intro _) | with_reducible apply State.give_kept
                 | with_reducible apply foldl_kept' | simp only [Kept.upd_iff] | split | dsimp only)

theorem Issue.post_kept {s₀ : State} {x} {lt} {r} {s : State} (hk : Kept s₀ s) :
    Kept s₀ (Issue.post x lt r s) := by
  unfold Issue.post
  repeat' (first | with_reducible assumption | (intro _) | with_reducible refine State.postRecord_kept ?_ (by assumption)
                 | with_reducible apply Issue.give_kept | with_reducible apply Issue.block_kept
                 | with_reducible apply foldl_kept' | simp only [Kept.upd_iff] | split | dsimp only)

theorem Issue.postOne_kept {s₀ : State} {x} {s : State} {lt} (hk : Kept s₀ s) :
    Kept s₀ (Issue.postOne x s lt) := by
  unfold Issue.postOne
  repeat' (first | with_reducible assumption | (intro _) | with_reducible apply Issue.give_kept
                 | with_reducible apply State.killPoisoned_kept | with_reducible apply State.demandVa_kept
                 | with_reducible apply Issue.post_kept | with_reducible apply foldl_kept' | split | dsimp only)

theorem taskpostBody_kept {s₀ : State} {x} {s : State} (hk : Kept s₀ s) :
    Kept s₀ (taskpostBody x s).1 := by
  unfold taskpostBody
  repeat' (first | with_reducible assumption | (intro _) | with_reducible apply afterRelease_kept
                 | with_reducible apply Issue.postOne_kept | with_reducible apply foldl_kept' | simp only [Kept.upd_iff]
                 | split | dsimp only)

theorem Issue.taskendOne_kept {s₀ : State} {x} {s : State} {lt} (hk : Kept s₀ s) :
    Kept s₀ (Issue.taskendOne x s lt) := by
  unfold Issue.taskendOne
  repeat' (first | with_reducible assumption | (intro _) | with_reducible apply Issue.updEvents_kept
                 | with_reducible apply State.updThread_kept | with_reducible apply Issue.block_kept
                 | with_reducible apply foldl_kept' | simp only [Kept.upd_iff] | split | dsimp only)

theorem State.settleEvent_kept {s₀ : State} {s : State} {t} {th} {w} {m} {any} {d} (hk : Kept s₀ s) :
    Kept s₀ (State.settleEvent s t th w m any d) := by
  unfold State.settleEvent
  repeat' (first | with_reducible assumption | (intro _) | with_reducible apply State.wake_kept
                 | with_reducible apply State.give_kept | with_reducible apply foldl_kept' | split | dsimp only)

theorem Issue.evwaitOne_kept {s₀ : State} {x} {s : State} {lt} (hk : Kept s₀ s) :
    Kept s₀ (Issue.evwaitOne x s lt) := by
  unfold Issue.evwaitOne
  repeat' (first | with_reducible assumption | (intro _) | with_reducible apply Issue.give_kept
                 | with_reducible apply Issue.block_kept | with_reducible apply foldl_kept' | split | dsimp only)

theorem evwaitBody_kept {s₀ : State} {x} {s : State} (hk : Kept s₀ s) :
    Kept s₀ (evwaitBody x s).1 := by
  unfold evwaitBody
  repeat' (first | with_reducible assumption | (intro _) | with_reducible apply Issue.evwaitOne_kept
                 | with_reducible apply State.gather_kept | with_reducible apply foldl_kept' | simp only [Kept.upd_iff]
                 | split | dsimp only)

theorem Issue.sofputOne_kept {s₀ : State} {x} {s : State} {lt} (hk : Kept s₀ s) :
    Kept s₀ (Issue.sofputOne x s lt) := by
  unfold Issue.sofputOne
  repeat' (first | with_reducible assumption | (intro _) | with_reducible apply Issue.give_kept
                 | with_reducible apply State.tick_kept | with_reducible apply foldl_kept' | simp only [Kept.upd_iff]
                 | split | dsimp only)

theorem Issue.sofgetOne_kept {s₀ : State} {x} {s : State} {lt} (hk : Kept s₀ s) :
    Kept s₀ (Issue.sofgetOne x s lt) := by
  unfold Issue.sofgetOne
  repeat' (first | with_reducible assumption | (intro _) | with_reducible apply State.acquire_kept
                 | with_reducible apply Issue.give_kept | with_reducible apply foldl_kept' | simp only [Kept.upd_iff]
                 | split | dsimp only)

theorem Issue.joinOne_kept {s₀ : State} {x} {s : State} {lt} (hk : Kept s₀ s) :
    Kept s₀ (Issue.joinOne x s lt) := by
  unfold Issue.joinOne
  repeat' (first | with_reducible assumption | (intro _) | with_reducible apply State.demandVa_kept
                 | with_reducible apply State.acquire_kept | with_reducible apply Issue.block_kept
                 | with_reducible apply foldl_kept' | split | dsimp only)

theorem joinBody_kept {s₀ : State} {x} {s : State} (hk : Kept s₀ s) :
    Kept s₀ (joinBody x s).1 := by
  unfold joinBody
  repeat' (first | with_reducible assumption | (intro _) | with_reducible apply Issue.joinOne_kept
                 | with_reducible apply foldl_kept' | simp only [Kept.upd_iff] | split | dsimp only)

theorem State.settleJoin_kept {s₀ : State} {s : State} {t} {th} {va} (hk : Kept s₀ s) :
    Kept s₀ (State.settleJoin s t th va) := by
  unfold State.settleJoin
  repeat' (first | with_reducible assumption | (intro _) | with_reducible apply State.killPoisoned_kept
                 | with_reducible apply State.trapAlone_kept | with_reducible apply State.wake_kept
                 | with_reducible apply State.acquire_kept | with_reducible apply foldl_kept' | simp only [Kept.upd_iff]
                 | split | dsimp only)

theorem Issue.pdeclOne_kept {s₀ : State} {x} {s : State} {lt} (hk : Kept s₀ s) :
    Kept s₀ (Issue.pdeclOne x s lt) := by
  unfold Issue.pdeclOne
  repeat' (first | with_reducible assumption | (intro _) | with_reducible apply Issue.give_kept
                 | with_reducible apply State.killPoisoned_kept | with_reducible apply State.demandVa_kept
                 | with_reducible apply foldl_kept' | simp only [Kept.upd_iff] | split | dsimp only)

theorem State.updParcel_kept {s₀ : State} {s : State} {id} {f} (hk : Kept s₀ s) :
    Kept s₀ (State.updParcel s id f) := by
  unfold State.updParcel
  repeat' (first | with_reducible assumption | (intro _) | with_reducible apply foldl_kept' | simp only [Kept.upd_iff]
                 | split | dsimp only)

theorem State.admitOne_kept {s₀ : State} {s : State} {r} (hk : Kept s₀ s) :
    Kept s₀ (State.admitOne s r) := by
  unfold State.admitOne
  repeat' (first | with_reducible assumption | (intro _) | with_reducible apply foldl_kept' | simp only [Kept.upd_iff]
                 | split | dsimp only)

theorem State.queueUp_kept {s₀ : State} {s : State} {uid} {ctx} {prio} {ops} (hk : Kept s₀ s) :
    Kept s₀ (State.queueUp s uid ctx prio ops) := by
  unfold State.queueUp
  repeat' (first | with_reducible assumption | (intro _) | with_reducible apply State.updTeam_kept
                 | with_reducible apply State.admitOne_kept | with_reducible apply foldl_kept' | simp only [Kept.upd_iff]
                 | split | dsimp only)

theorem State.request_kept {s₀ : State} {s : State} {c} {uid} {ops} {t : State} (hk : Kept s₀ s) :
    (State.request s c uid ops) = .ok t → Kept s₀ t := by
  unfold State.request
  intro ht
  repeat' (first | assumption | (split at ht) | (simp only [reduceCtorEq, Except.ok.injEq] at ht) | (subst ht) 
                 | with_reducible apply State.queueUp_kept | with_reducible apply State.updTeam_kept
                 | with_reducible apply foldl_kept' | simp only [Kept.upd_iff] | split | dsimp only)

theorem Issue.penterOne_kept {s₀ : State} {x} {lt} {s : State} (hk : Kept s₀ s) :
    Kept s₀ (Issue.penterOne x lt s) := by
  unfold Issue.penterOne
  repeat' (first | with_reducible assumption | (intro _) | with_reducible apply State.updThread_kept
                 | with_reducible apply Issue.give_kept | with_reducible apply Issue.block_kept
                 | with_reducible apply State.rangeAcquire_kept
                 | with_reducible refine State.request_kept ?_ (by assumption) | with_reducible apply foldl_kept' | split
                 | dsimp only)

theorem State.leaveParcels_kept {s₀ : State} {s : State} {uid} {ids} (hk : Kept s₀ s) :
    Kept s₀ (State.leaveParcels s uid ids) := by
  unfold State.leaveParcels
  repeat' (first | with_reducible assumption | (intro _) | with_reducible apply State.takePlace_kept
                 | with_reducible apply State.updTeam_kept | with_reducible apply foldl_kept' | simp only [Kept.upd_iff]
                 | split | dsimp only)

theorem State.settleLeave_kept {s₀ : State} {s : State} {t} (hk : Kept s₀ s) :
    Kept s₀ (State.settleLeave s t) := by
  unfold State.settleLeave
  repeat' (first | with_reducible assumption | (intro _) | with_reducible apply State.leaveParcels_kept
                 | with_reducible apply foldl_kept' | simp only [Kept.upd_iff] | split | dsimp only)

theorem State.withdraw_kept {s₀ : State} {s : State} {t} (hk : Kept s₀ s) :
    Kept s₀ (State.withdraw s t) := by
  unfold State.withdraw
  repeat' (first | with_reducible assumption | (intro _) | with_reducible apply State.leaveParcels_kept
                 | with_reducible apply State.updTeam_kept | with_reducible apply foldl_kept' | simp only [Kept.upd_iff]
                 | split | dsimp only)

theorem Issue.pleaveOne_kept {s₀ : State} {x} {s : State} {lt} (hk : Kept s₀ s) :
    Kept s₀ (Issue.pleaveOne x s lt) := by
  unfold Issue.pleaveOne
  repeat' (first | with_reducible assumption | (intro _) | with_reducible apply State.updThread_kept
                 | with_reducible apply Issue.give_kept | with_reducible apply State.settleLeave_kept
                 | with_reducible apply foldl_kept' | split | dsimp only)

theorem State.evict_kept {s₀ : State} {s : State} {id} {freed} (hk : Kept s₀ s) :
    Kept s₀ (State.evict s id freed) := by
  unfold State.evict
  repeat' (first | with_reducible assumption | (intro _) | with_reducible apply State.updParcel_kept
                 | with_reducible apply foldl_kept' | simp only [Kept.upd_iff] | split | dsimp only)

theorem State.pfree_kept {s₀ : State} {s : State} {p} (hk : Kept s₀ s) :
    Kept s₀ (State.pfree s p).1 := by
  unfold State.pfree
  repeat' (first | with_reducible assumption | (intro _) | with_reducible apply State.evict_kept
                 | with_reducible apply foldl_kept' | simp only [Kept.upd_iff] | split | dsimp only)

theorem Issue.pfreeOne_kept {s₀ : State} {x} {s : State} {lt} (hk : Kept s₀ s) :
    Kept s₀ (Issue.pfreeOne x s lt) := by
  unfold Issue.pfreeOne
  repeat' (first | with_reducible assumption | (intro _) | with_reducible apply Issue.give_kept
                 | with_reducible apply State.pfree_kept | with_reducible apply foldl_kept' | simp only [Kept.upd_iff]
                 | split | dsimp only)

theorem State.endRequest_kept {s₀ : State} {s : State} {uid} {f} (hk : Kept s₀ s) :
    Kept s₀ (State.endRequest s uid f) := by
  unfold State.endRequest
  repeat' (first | with_reducible assumption | (intro _) | with_reducible apply State.updTeam_kept
                 | with_reducible apply foldl_kept' | simp only [Kept.upd_iff] | split | dsimp only)

theorem State.endStatus_kept {s₀ : State} {s : State} {uid} {w} (hk : Kept s₀ s) :
    Kept s₀ (State.endStatus s uid w) := by
  unfold State.endStatus
  repeat' (first | with_reducible assumption | (intro _) | with_reducible apply State.endRequest_kept
                 | with_reducible apply foldl_kept' | simp only [Kept.upd_iff] | split | dsimp only)

theorem State.endUnmapped_kept {s₀ : State} {s : State} {uid} {info} (hk : Kept s₀ s) :
    Kept s₀ (State.endUnmapped s uid info) := by
  unfold State.endUnmapped
  repeat' (first | with_reducible assumption | (intro _) | with_reducible apply State.endRequest_kept
                 | with_reducible apply foldl_kept' | simp only [Kept.upd_iff] | split | dsimp only)

theorem State.backfillAll_kept {s₀ : State} {s : State} {head} {rs} (hk : Kept s₀ s) :
    Kept s₀ (State.backfillAll s head rs) := by
  induction rs generalizing s head with
  | nil => exact hk
  | cons a l ih =>
    unfold State.backfillAll
    try dsimp only
    repeat' (first | with_reducible assumption | (intro _) | with_reducible apply ih
                   | with_reducible apply State.admitOne_kept | with_reducible apply foldl_kept' | simp only [Kept.upd_iff]
                   | split | dsimp only)

theorem State.pinPage_kept {s₀ : State} {s : State} {ctx} {g} (hk : Kept s₀ s) :
    Kept s₀ (State.pinPage s ctx g) := by
  unfold State.pinPage
  repeat' (first | with_reducible assumption | (intro _) | with_reducible apply foldl_kept' | simp only [Kept.upd_iff]
                 | split | dsimp only)

theorem State.dropKept_kept {s₀ : State} {s : State} (hk : Kept s₀ s) :
    Kept s₀ (State.dropKept s) := by
  unfold State.dropKept
  repeat' (first | with_reducible assumption | (intro _) | with_reducible apply foldl_kept' | simp only [Kept.upd_iff]
                 | split | dsimp only)

theorem State.admitHead_kept {s₀ : State} {s : State} {r} {u} {vs} (hk : Kept s₀ s) :
    Kept s₀ (State.admitHead s r u vs) := by
  unfold State.admitHead
  repeat' (first | with_reducible assumption | (intro _) | with_reducible apply State.evict_kept
                 | with_reducible apply State.admitOne_kept | with_reducible apply State.pinPage_kept
                 | with_reducible apply foldl_kept' | simp only [Kept.upd_iff] | split | dsimp only)

theorem State.testHead_kept {s₀ : State} {s : State} {r} {c} (hk : Kept s₀ s) :
    Kept s₀ (State.testHead s r c) := by
  unfold State.testHead
  repeat' (first | with_reducible assumption | (intro _) | with_reducible apply State.endUnmapped_kept
                 | with_reducible apply State.updParcel_kept | with_reducible apply State.endStatus_kept
                 | with_reducible apply State.admitHead_kept | with_reducible apply foldl_kept' | split | dsimp only)

theorem State.enqueue_kept {s₀ : State} {s : State} {rs} (hk : Kept s₀ s) :
    Kept s₀ (State.enqueue s rs) := by
  induction rs generalizing s with
  | nil => exact hk
  | cons a l ih =>
    unfold State.enqueue
    try dsimp only
    repeat' (first | with_reducible assumption | (intro _) | with_reducible apply ih
                   | with_reducible apply State.endStatus_kept | with_reducible apply State.queueUp_kept
                   | with_reducible apply foldl_kept' | simp only [Kept.upd_iff] | split | dsimp only)

theorem State.recheck_kept {s₀ : State} {s : State} {rs} (hk : Kept s₀ s) :
    Kept s₀ (State.recheck s rs) := by
  induction rs generalizing s with
  | nil => exact hk
  | cons a l ih =>
    unfold State.recheck
    try dsimp only
    repeat' (first | with_reducible assumption | (intro _) | with_reducible apply ih
                   | with_reducible apply State.endStatus_kept | with_reducible apply foldl_kept' | simp only [Kept.upd_iff]
                   | split | dsimp only)

theorem State.enterTeam_kept {s₀ : State} {s : State} {t} (hk : Kept s₀ s) :
    Kept s₀ (State.enterTeam s t) := by
  unfold State.enterTeam
  repeat' (first | with_reducible assumption | (intro _) | with_reducible apply State.updTeam_kept
                 | with_reducible apply foldl_kept' | simp only [Kept.upd_iff] | split | dsimp only)

theorem State.testQueue_kept {s₀ : State} {s : State} {head} {rest} (hk : Kept s₀ s) :
    Kept s₀ (State.testQueue s head rest) := by
  unfold State.testQueue
  repeat' (first | with_reducible assumption | (intro _) | with_reducible apply State.backfillAll_kept
                 | with_reducible apply State.dropKept_kept | with_reducible apply State.testHead_kept
                 | with_reducible apply foldl_kept' | simp only [Kept.upd_iff] | split | dsimp only)

theorem State.settlePac_kept {s₀ : State} {s : State} (hk : Kept s₀ s) :
    Kept s₀ (State.settlePac s) := by
  unfold State.settlePac
  repeat' (first | with_reducible assumption | (intro _) | with_reducible apply State.enqueue_kept
                 | with_reducible apply State.recheck_kept | with_reducible apply State.testQueue_kept
                 | with_reducible apply State.enterTeam_kept | with_reducible apply foldl_kept' | simp only [Kept.upd_iff]
                 | split | dsimp only)

theorem State.settlePenter_kept {s₀ : State} {s : State} {t} (hk : Kept s₀ s) :
    Kept s₀ (State.settlePenter s t) := by
  unfold State.settlePenter
  repeat' (first | with_reducible assumption | (intro _) | with_reducible apply State.rangeAcquire_kept
                 | with_reducible apply State.wake_kept | with_reducible apply State.give_kept
                 | with_reducible apply State.trapGroup_kept | with_reducible apply State.releaseHome_kept
                 | with_reducible apply State.updThreads_kept | with_reducible apply foldl_kept' | split | dsimp only)

theorem State.fillComplete_kept {s₀ : State} {s : State} {id} (hk : Kept s₀ s) :
    Kept s₀ (State.fillComplete s id) := by
  unfold State.fillComplete
  repeat' (first | with_reducible assumption | (intro _) | with_reducible apply State.updParcel_kept
                 | with_reducible apply State.markL2_kept | with_reducible apply State.pinL2_kept
                 | with_reducible apply State.forceRecall_kept | with_reducible apply foldl_kept' | simp only [Kept.upd_iff]
                 | split | dsimp only)

theorem State.evictionComplete_kept {s₀ : State} {s : State} {id} (hk : Kept s₀ s) :
    Kept s₀ (State.evictionComplete s id) := by
  unfold State.evictionComplete
  repeat' (first | with_reducible assumption | (intro _) | with_reducible apply foldl_kept' | simp only [Kept.upd_iff]
                 | split | dsimp only)

theorem State.clear_kept {s₀ s : State} {lo hi} (hk : Kept s₀ s) : Kept s₀ { s with mem := Memory.clear s.mem lo hi } :=
  ⟨hk.cycles, hk.deviceId, hk.lifecycle, hk.fwsvn, hk.boots, hk.boot, hk.pinBudget, hk.nocAvoid, hk.nocDown, hk.throttled,
   hk.signatures, hk.freeCtr, hk.agenda, hk.keyErased, fun w => Memory.clear_wf _ _ _ (hk.mem w)⟩

theorem State.discardPolder_kept {s₀ s : State} {id} (hk : Kept s₀ s) : Kept s₀ (s.discardPolder id) :=
  Kept.upd (State.clear_kept hk)

theorem State.leaseGrant_kept {s₀ : State} {s : State} {c} {die} {n} {life} {id} {a} {vs} (hk : Kept s₀ s) :
    Kept s₀ (State.leaseGrant s c die n life id a vs) := by
  unfold State.leaseGrant
  repeat' (first | with_reducible assumption | (intro _) | with_reducible apply State.evict_kept
                 | with_reducible apply State.evictionComplete_kept | with_reducible apply State.discardPolder_kept
                 | with_reducible apply State.markL2_kept | with_reducible apply State.pinL2_kept
                 | with_reducible apply State.homeWrite_kept | with_reducible apply State.updCtx_kept
                 | with_reducible apply foldl_kept' | simp only [Kept.upd_iff] | split | dsimp only)

theorem Issue.leaseOne_kept {s₀ : State} {x} {s : State} {lt} (hk : Kept s₀ s) :
    Kept s₀ (Issue.leaseOne x s lt) := by
  unfold Issue.leaseOne
  repeat' (first | with_reducible assumption | (intro _) | with_reducible apply Issue.give_kept
                 | with_reducible apply State.leaseGrant_kept | with_reducible apply foldl_kept' | simp only [Kept.upd_iff]
                 | split | dsimp only)

theorem State.endLease_kept {s₀ : State} {s : State} {p} (hk : Kept s₀ s) :
    Kept s₀ (State.endLease s p) := by
  unfold State.endLease
  repeat' (first | with_reducible assumption | (intro _) | with_reducible apply foldl_kept' | simp only [Kept.upd_iff]
                 | split | dsimp only)

theorem State.endSlice_kept {s₀ : State} {s : State} {id} {slice} (hk : Kept s₀ s) :
    Kept s₀ (State.endSlice s id slice) := by
  unfold State.endSlice
  repeat' (first | with_reducible assumption | (intro _) | with_reducible apply State.discardPolder_kept
                 | with_reducible apply foldl_kept' | simp only [Kept.upd_iff] | split | dsimp only)

theorem Issue.unleaseOne_kept {s₀ : State} {x} {s : State} {lt} (hk : Kept s₀ s) :
    Kept s₀ (Issue.unleaseOne x s lt) := by
  unfold Issue.unleaseOne
  repeat' (first | with_reducible assumption | (intro _) | with_reducible apply Issue.give_kept
                 | with_reducible apply State.endLease_kept | with_reducible apply foldl_kept' | simp only [Kept.upd_iff]
                 | split | dsimp only)

theorem State.leaseExpiry_kept {s₀ : State} {s : State} {id} (hk : Kept s₀ s) :
    Kept s₀ (State.leaseExpiry s id) := by
  unfold State.leaseExpiry
  repeat' (first | with_reducible assumption | (intro _) | with_reducible apply State.endLease_kept
                 | with_reducible apply foldl_kept' | simp only [Kept.upd_iff] | split | dsimp only)

theorem State.expireDue_kept {s₀ : State} {s : State} (hk : Kept s₀ s) :
    Kept s₀ (State.expireDue s) := by
  unfold State.expireDue
  repeat' (first | with_reducible assumption | (intro _) | with_reducible apply State.leaseExpiry_kept
                 | with_reducible apply foldl_kept' | simp only [Kept.upd_iff] | split | dsimp only)

theorem State.expirePassed_kept {s₀ : State} {s : State} (hk : Kept s₀ s) :
    Kept s₀ (State.expirePassed s) := by
  unfold State.expirePassed
  repeat' (first | with_reducible assumption | (intro _) | with_reducible apply State.leaseExpiry_kept
                 | with_reducible apply foldl_kept' | simp only [Kept.upd_iff] | split | dsimp only)

theorem Issue.slotOne_kept {s₀ : State} {x} {o} {wait} {s : State} {lt} (hk : Kept s₀ s) :
    Kept s₀ (Issue.slotOne x o wait s lt) := by
  unfold Issue.slotOne
  repeat' (first | with_reducible assumption | (intro _) | with_reducible apply Issue.give_kept
                 | with_reducible apply State.updTeam_kept | with_reducible apply Issue.block_kept
                 | with_reducible apply foldl_kept' | simp only [Kept.upd_iff] | split | dsimp only)

theorem slotBody_kept {s₀ : State} {o} {wait} {x} {s : State} (hk : Kept s₀ s) :
    Kept s₀ (slotBody o wait x s).1 := by
  unfold slotBody
  repeat' (first | with_reducible assumption | (intro _) | with_reducible apply Issue.slotOne_kept
                 | with_reducible apply foldl_kept' | simp only [Kept.upd_iff] | split | dsimp only)

theorem Issue.slotinitOne_kept {s₀ : State} {x} {s : State} {lt} (hk : Kept s₀ s) :
    Kept s₀ (Issue.slotinitOne x s lt) := by
  unfold Issue.slotinitOne
  repeat' (first | with_reducible assumption | (intro _) | with_reducible apply Issue.give_kept
                 | with_reducible apply State.updTeam_kept | with_reducible apply foldl_kept' | split | dsimp only)

theorem State.settleSlot_kept {s₀ : State} {s : State} {uid} {th} {handle} {o} {d} (hk : Kept s₀ s) :
    Kept s₀ (State.settleSlot s uid th handle o d) := by
  unfold State.settleSlot
  repeat' (first | with_reducible assumption | (intro _) | with_reducible apply State.wake_kept
                 | with_reducible apply State.give_kept | with_reducible apply State.updTeam_kept
                 | with_reducible apply foldl_kept' | simp only [Kept.upd_iff] | split | dsimp only)

theorem Issue.guardOne_kept {s₀ : State} {x} {val} {s : State} {lt} (hk : Kept s₀ s) :
    Kept s₀ (Issue.guardOne x val s lt) := by
  unfold Issue.guardOne
  repeat' (first | with_reducible assumption | (intro _) | with_reducible apply State.updTeam_kept
                 | with_reducible apply foldl_kept' | simp only [Kept.upd_iff] | split | dsimp only)

theorem guardBody_kept {s₀ : State} {val} {x} {s : State} (hk : Kept s₀ s) :
    Kept s₀ (guardBody val x s).1 := by
  unfold guardBody
  repeat' (first | with_reducible assumption | (intro _) | with_reducible apply Issue.guardOne_kept
                 | with_reducible apply foldl_kept' | simp only [Kept.upd_iff] | split | dsimp only)

theorem State.register_kept {s₀ : State} {s : State} {cluster} {core} {uid} {tid} {ctx} {cmd} {rs} (hk : Kept s₀ s) :
    Kept s₀ (State.register s cluster core uid tid ctx cmd rs) := by
  induction rs generalizing s cluster core uid tid ctx cmd with
  | nil => exact hk
  | cons a l ih =>
    unfold State.register
    try dsimp only
    repeat' (first | with_reducible assumption | (intro _) | with_reducible apply ih
                   | with_reducible apply State.takePlace_kept | with_reducible apply foldl_kept' | simp only [Kept.upd_iff]
                   | split | dsimp only)

theorem State.unregister_kept {s₀ : State} {s : State} {cmd} (hk : Kept s₀ s) :
    Kept s₀ (State.unregister s cmd) := by
  unfold State.unregister
  repeat' (first | with_reducible assumption | (intro _) | with_reducible apply foldl_kept' | simp only [Kept.upd_iff]
                 | split | dsimp only)

theorem State.engApply_kept {s₀ : State} {s : State} {uid} {loc} {cells} (hk : Kept s₀ s) :
    Kept s₀ (State.engApply s uid loc cells) := by
  unfold State.engApply
  repeat' (first | with_reducible assumption | (intro _) | with_reducible apply State.updTeam_kept
                 | with_reducible apply State.homeWrite_kept | with_reducible apply foldl_kept' | simp only [Kept.upd_iff]
                 | split | dsimp only)

theorem Plan.apply_kept {s₀ : State} {p} {s : State} {uid} {pick} (hk : Kept s₀ s) :
    Kept s₀ (Plan.apply p s uid pick) := by
  unfold Plan.apply
  repeat' (first | with_reducible assumption | (intro _) | with_reducible apply State.engApply_kept
                 | with_reducible apply foldl_kept' | simp only [Kept.upd_iff] | split | dsimp only)

theorem Plan.demand_kept {s₀ : State} {p} {s : State} (hk : Kept s₀ s) :
    Kept s₀ (Plan.demand p s) := by
  unfold Plan.demand
  repeat' (first | with_reducible assumption | (intro _) | with_reducible apply State.useL2_kept
                 | with_reducible apply State.countBypass_kept | with_reducible apply foldl_kept' | simp only [Kept.upd_iff]
                 | split | dsimp only)

theorem State.updCourier_kept {s₀ : State} {s : State} {id} {f} (hk : Kept s₀ s) :
    Kept s₀ (State.updCourier s id f) := by
  unfold State.updCourier
  repeat' (first | with_reducible assumption | (intro _) | with_reducible apply foldl_kept' | simp only [Kept.upd_iff]
                 | split | dsimp only)

theorem State.enterCourier_kept {s₀ : State} {s : State} {k} {t : State} (hk : Kept s₀ s) :
    (State.enterCourier s k) = some t → Kept s₀ t := by
  unfold State.enterCourier
  intro ht
  repeat' (first | assumption | (split at ht) | (simp only [Option.some.injEq, reduceCtorEq] at ht) | (subst ht) 
                 | with_reducible apply State.register_kept | with_reducible apply foldl_kept' | simp only [Kept.upd_iff]
                 | split | dsimp only)

theorem Issue.issueCourier_kept {s₀ : State} {x} {lt} {what} {tds} {s : State} (hk : Kept s₀ s) :
    Kept s₀ (Issue.issueCourier x lt what tds s) := by
  unfold Issue.issueCourier
  repeat' (first | with_reducible assumption | (intro _) | with_reducible apply State.tick_kept
                 | with_reducible refine State.enterCourier_kept ?_ (by assumption) | with_reducible apply Issue.block_kept
                 | with_reducible apply foldl_kept' | simp only [Kept.upd_iff] | split | dsimp only)

theorem copyBody_kept {s₀ : State} {x} {s : State} (hk : Kept s₀ s) :
    Kept s₀ (copyBody x s).1 := by
  unfold copyBody
  repeat' (first | with_reducible assumption | (intro _) | with_reducible apply Issue.issueCourier_kept
                 | with_reducible apply foldl_kept' | simp only [Kept.upd_iff] | split | dsimp only)

theorem cpytdBody_kept {s₀ : State} {x} {s : State} (hk : Kept s₀ s) :
    Kept s₀ (cpytdBody x s).1 := by
  unfold cpytdBody
  repeat' (first | with_reducible assumption | (intro _) | with_reducible apply Issue.issueCourier_kept
                 | with_reducible apply foldl_kept' | simp only [Kept.upd_iff] | split | dsimp only)

theorem State.sealBatch_kept {s₀ : State} {s : State} {uid} {tid} (hk : Kept s₀ s) :
    Kept s₀ (State.sealBatch s uid tid).1 := by
  unfold State.sealBatch
  repeat' (first | with_reducible assumption | (intro _) | with_reducible apply State.updThread_kept
                 | with_reducible apply foldl_kept' | simp only [Kept.upd_iff] | split | dsimp only)

theorem Issue.sealOne_kept {s₀ : State} {x} {s : State} {lt} (hk : Kept s₀ s) :
    Kept s₀ (Issue.sealOne x s lt) := by
  unfold Issue.sealOne
  repeat' (first | with_reducible assumption | (intro _) | with_reducible apply Issue.block_kept
                 | with_reducible apply State.sealBatch_kept | with_reducible apply Issue.give_kept
                 | with_reducible apply foldl_kept' | split | dsimp only)

theorem State.settleSeal_kept {s₀ : State} {s : State} {uid} {th} {d} (hk : Kept s₀ s) :
    Kept s₀ (State.settleSeal s uid th d) := by
  unfold State.settleSeal
  repeat' (first | with_reducible assumption | (intro _) | with_reducible apply State.sealBatch_kept
                 | with_reducible apply State.wake_kept | with_reducible apply State.give_kept
                 | with_reducible apply foldl_kept' | split | dsimp only)

theorem State.acquireSpans_kept {s₀ : State} {s : State} {t} {l} (hk : Kept s₀ s) :
    Kept s₀ (State.acquireSpans s t l) := by
  unfold State.acquireSpans
  repeat' (first | with_reducible assumption | (intro _) | with_reducible apply State.rangeAcquire_kept
                 | with_reducible apply foldl_kept' | simp only [Kept.upd_iff] | split | dsimp only)

theorem State.waitbOver_kept {s₀ : State} {s : State} {t} {th} {n} {d} {u : State} (hk : Kept s₀ s) :
    (State.waitbOver s t th n d) = some u → Kept s₀ u := by
  unfold State.waitbOver
  intro ht
  repeat' (first | assumption | (split at ht) | (simp only [Option.some.injEq, reduceCtorEq] at ht) | (subst ht) 
                 | with_reducible apply State.updThread_kept | with_reducible apply State.acquireSpans_kept
                 | with_reducible apply State.give_kept | with_reducible apply foldl_kept' | simp only [Kept.upd_iff]
                 | split | dsimp only)

theorem State.settleWaitb_kept {s₀ : State} {s : State} {t} {th} {n} {d} (hk : Kept s₀ s) :
    Kept s₀ (State.settleWaitb s t th n d) := by
  unfold State.settleWaitb
  repeat' (first | with_reducible assumption | (intro _) | with_reducible refine State.waitbOver_kept ?_ (by assumption)
                 | with_reducible apply State.trapAlone_kept | with_reducible apply State.wake_kept
                 | with_reducible apply foldl_kept' | simp only [Kept.upd_iff] | split | dsimp only)

theorem Issue.waitbOne_kept {s₀ s : State} {x lt} (hk : Kept s₀ s) : Kept s₀ (Issue.waitbOne x s lt) := by
  unfold Issue.waitbOne
  dsimp only
  cases h : s.waitbOver x.team lt.2 (x.a lt 32) (x.dst lt) with
  | none => exact Issue.block_kept hk
  | some u => exact State.waitbOver_kept hk h

theorem waitbBody_kept {s₀ : State} {x} {s : State} (hk : Kept s₀ s) :
    Kept s₀ (waitbBody x s).1 := by
  unfold waitbBody
  repeat' (first | with_reducible assumption | (intro _) | with_reducible apply Issue.waitbOne_kept
                 | with_reducible apply foldl_kept' | simp only [Kept.upd_iff] | split | dsimp only)

theorem State.kvSeal_kept {s₀ : State} {s : State} {uid} {tid} {newLen} {d} (hk : Kept s₀ s) :
    Kept s₀ (State.kvSeal s uid tid newLen d) := by
  unfold State.kvSeal
  repeat' (first | with_reducible assumption | (intro _) | with_reducible apply State.sealBatch_kept
                 | with_reducible apply State.give_kept | with_reducible apply foldl_kept' | simp only [Kept.upd_iff]
                 | split | dsimp only)

theorem Issue.kvDemand_kept {s₀ : State} {x} {s : State} {lt} (hk : Kept s₀ s) :
    Kept s₀ (Issue.kvDemand x s lt) := by
  unfold Issue.kvDemand
  repeat' (first | with_reducible assumption | (intro _) | with_reducible apply State.demandVa_kept
                 | with_reducible apply foldl_kept' | split | dsimp only)

theorem Issue.kvOne_kept {s₀ : State} {x} {s : State} {lt} (hk : Kept s₀ s) :
    Kept s₀ (Issue.kvOne x s lt) := by
  unfold Issue.kvOne
  repeat' (first | with_reducible assumption | (intro _) | with_reducible apply Issue.give_kept
                 | with_reducible apply Issue.kvDemand_kept | with_reducible apply State.kvSeal_kept
                 | with_reducible apply State.tick_kept | with_reducible refine State.enterCourier_kept ?_ (by assumption)
                 | with_reducible apply Issue.block_kept | with_reducible apply foldl_kept' | simp only [Kept.upd_iff]
                 | split | dsimp only)

theorem State.settleHeldCourier_kept {s₀ : State} {s : State} {k} (hk : Kept s₀ s) :
    Kept s₀ (State.settleHeldCourier s k) := by
  unfold State.settleHeldCourier
  repeat' (first | with_reducible assumption | (intro _) | with_reducible refine State.enterCourier_kept ?_ (by assumption)
                 | with_reducible apply State.wake_kept | with_reducible apply State.kvSeal_kept
                 | with_reducible apply foldl_kept' | simp only [Kept.upd_iff] | split | dsimp only)

theorem unlessPoisoned_kept {s₀ : State} {poison} {body : Issue → State → State × Out} {x} {s : State} (hf : ∀ y0 y1, Kept
    s₀ y1 → Kept s₀ (body y0 y1).1) (hk : Kept s₀ s) :
    Kept s₀ (unlessPoisoned poison body x s).1 := by
  unfold unlessPoisoned
  repeat' (first | with_reducible assumption | (intro _) | with_reducible apply hf
                 | with_reducible apply State.killPoisoned_kept | with_reducible apply foldl_kept'
                 | simp only [Kept.upd_iff] | split | dsimp only)

theorem kvRun_kept {s₀ : State} {b0} {b1 : State} (hk : Kept s₀ b1) :
    Kept s₀ (kvRun b0 b1).1 := by
  unfold kvRun
  repeat' (first | with_reducible assumption | (intro _) | with_reducible apply whenReady_kept
                 | with_reducible apply unlessPoisoned_kept | with_reducible apply unlessRaised_kept
                 | with_reducible apply plain_kept | with_reducible apply Issue.kvOne_kept
                 | with_reducible apply foldl_kept' | simp only [Kept.upd_iff] | split | dsimp only)

theorem kvBody_kept {s₀ : State} {x} {s : State} (hk : Kept s₀ s) :
    Kept s₀ (kvBody x s).1 := by
  unfold kvBody
  repeat' (first | with_reducible assumption | (intro _) | with_reducible apply Issue.block_kept
                 | with_reducible apply kvRun_kept | with_reducible apply foldl_kept' | split | dsimp only)

theorem State.settleKv_kept {s₀ : State} {s : State} {uid} {th} (hk : Kept s₀ s) :
    Kept s₀ (State.settleKv s uid th) := by
  unfold State.settleKv
  repeat' (first | with_reducible assumption | (intro _) | with_reducible apply State.wake_kept
                 | with_reducible apply foldl_kept' | simp only [Kept.upd_iff] | split | dsimp only)

theorem State.endCourier_kept {s₀ : State} {s : State} {k} (hk : Kept s₀ s) :
    Kept s₀ (State.endCourier s k) := by
  unfold State.endCourier
  repeat' (first | with_reducible assumption | (intro _) | with_reducible apply State.unregister_kept
                 | with_reducible apply State.updThread_kept | with_reducible apply foldl_kept' | simp only [Kept.upd_iff]
                 | split | dsimp only)

theorem State.faultCourier_kept {s₀ : State} {s : State} {k} {info} (hk : Kept s₀ s) :
    Kept s₀ (State.faultCourier s k info) := by
  unfold State.faultCourier
  repeat' (first | with_reducible assumption | (intro _) | with_reducible apply State.unregister_kept
                 | with_reducible apply State.updCourier_kept | with_reducible apply foldl_kept' | simp only [Kept.upd_iff]
                 | split | dsimp only)

theorem State.courierStart_kept {s₀ : State} {s : State} {core} (hk : Kept s₀ s) :
    Kept s₀ (State.courierStart s core) := by
  unfold State.courierStart
  repeat' (first | with_reducible assumption | (intro _) | with_reducible apply State.endCourier_kept
                 | with_reducible apply State.updCourier_kept | with_reducible apply State.killPoisoned_kept
                 | with_reducible apply Plan.demand_kept | with_reducible apply Plan.apply_kept
                 | with_reducible apply foldl_kept' | split | dsimp only)

theorem State.slotLanded_kept {s₀ : State} {s : State} {id} {bytes} (hk : Kept s₀ s) :
    Kept s₀ (State.slotLanded s id bytes) := by
  unfold State.slotLanded
  repeat' (first | with_reducible assumption | (intro _) | with_reducible apply State.killPoisoned_kept
                 | with_reducible apply State.faultCourier_kept | with_reducible apply Plan.apply_kept
                 | with_reducible apply State.updTeam_kept | with_reducible apply State.endCourier_kept
                 | with_reducible apply State.updCourier_kept | with_reducible apply foldl_kept' | split | dsimp only)

theorem State.courierComplete_kept {s₀ : State} {s : State} {id} (hk : Kept s₀ s) :
    Kept s₀ (State.courierComplete s id) := by
  unfold State.courierComplete
  repeat' (first | with_reducible assumption | (intro _) | with_reducible apply State.endCourier_kept
                 | with_reducible apply State.killPoisoned_kept | with_reducible apply Plan.apply_kept
                 | with_reducible apply State.homeWrite_kept | with_reducible apply State.faultCourier_kept
                 | with_reducible apply foldl_kept' | split | dsimp only)

theorem State.courierFaults_kept {s₀ : State} {s : State} {id} (hk : Kept s₀ s) :
    Kept s₀ (State.courierFaults s id) := by
  unfold State.courierFaults
  repeat' (first | with_reducible assumption | (intro _) | with_reducible apply State.faultCourier_kept
                 | with_reducible apply Plan.apply_kept | with_reducible apply foldl_kept' | split | dsimp only)

theorem State.skipCourier_kept {s₀ : State} {s : State} {k} (hk : Kept s₀ s) :
    Kept s₀ (State.skipCourier s k) := by
  unfold State.skipCourier
  repeat' (first | with_reducible assumption | (intro _) | with_reducible apply State.endCourier_kept
                 | with_reducible apply Plan.apply_kept | with_reducible apply foldl_kept' | simp only [Kept.upd_iff]
                 | split | dsimp only)

theorem State.retryCourier_kept {s₀ : State} {s : State} {k} (hk : Kept s₀ s) :
    Kept s₀ (State.retryCourier s k) := by
  unfold State.retryCourier
  repeat' (first | with_reducible assumption | (intro _) | with_reducible apply foldl_kept' | simp only [Kept.upd_iff]
                 | split | dsimp only)

theorem State.reportCouriers_kept {s₀ : State} {s : State} {ks} (hk : Kept s₀ s) :
    Kept s₀ (State.reportCouriers s ks) := by
  induction ks generalizing s with
  | nil => exact hk
  | cons a l ih =>
    unfold State.reportCouriers
    try dsimp only
    repeat' (first | with_reducible assumption | (intro _) | with_reducible apply ih
                   | with_reducible apply State.report_kept | with_reducible apply State.updCourier_kept
                   | with_reducible apply foldl_kept' | simp only [Kept.upd_iff] | split | dsimp only)

theorem imageChecked_kept {s₀ : State} {va} {n} {body : Issue → State → State × Out} {b3} {b4 : State} (hf : ∀ y0 y1, Kept
    s₀ y1 → Kept s₀ (body y0 y1).1) (hk : Kept s₀ b4) :
    Kept s₀ (imageChecked va n body b3 b4).1 := by
  unfold imageChecked
  repeat' (first | with_reducible assumption | (intro _) | with_reducible apply hf | with_reducible apply unlessRaised_kept
                 | with_reducible apply foldl_kept' | simp only [Kept.upd_iff] | split | dsimp only)

theorem Issue.demandImages_kept {s₀ : State} {x} {va} {n} {s : State} (hk : Kept s₀ s) :
    Kept s₀ (Issue.demandImages x va n s) := by
  unfold Issue.demandImages
  repeat' (first | with_reducible assumption | (intro _) | with_reducible apply State.demandVa_kept
                 | with_reducible apply foldl_kept' | simp only [Kept.upd_iff] | split | dsimp only)

theorem tdsetBody_kept {s₀ : State} {x} {s : State} (hk : Kept s₀ s) :
    Kept s₀ (tdsetBody x s).1 := by
  unfold tdsetBody
  repeat' (first | with_reducible assumption | (intro _) | with_reducible apply State.killPoisoned_kept
                 | with_reducible apply State.updTeam_kept | with_reducible apply Issue.demandImages_kept
                 | with_reducible apply Issue.write_kept | with_reducible apply foldl_kept' | split | dsimp only)

theorem State.setEngine_kept {s₀ : State} {s : State} {e} (hk : Kept s₀ s) :
    Kept s₀ (State.setEngine s e) := by
  unfold State.setEngine
  repeat' (first | with_reducible assumption | (intro _) | with_reducible apply foldl_kept' | simp only [Kept.upd_iff]
                 | split | dsimp only)

theorem State.updMatrix_kept {s₀ : State} {s : State} {id} {f} (hk : Kept s₀ s) :
    Kept s₀ (State.updMatrix s id f) := by
  unfold State.updMatrix
  repeat' (first | with_reducible assumption | (intro _) | with_reducible apply foldl_kept' | simp only [Kept.upd_iff]
                 | split | dsimp only)

theorem State.enterMatrix_kept {s₀ : State} {s : State} {k} {t : State} (hk : Kept s₀ s) :
    (State.enterMatrix s k) = some t → Kept s₀ t := by
  unfold State.enterMatrix
  intro ht
  repeat' (first | assumption | (split at ht) | (simp only [Option.some.injEq, reduceCtorEq] at ht) | (subst ht) 
                 | with_reducible apply State.register_kept | with_reducible apply foldl_kept' | simp only [Kept.upd_iff]
                 | split | dsimp only)

theorem Issue.holdMatrix_kept {s₀ : State} {x} {lt} {m} {what} {s : State} (hk : Kept s₀ s) :
    Kept s₀ (Issue.holdMatrix x lt m what s) := by
  unfold Issue.holdMatrix
  repeat' (first | with_reducible assumption | (intro _) | with_reducible apply State.tick_kept
                 | with_reducible apply foldl_kept' | simp only [Kept.upd_iff] | split | dsimp only)

theorem Issue.issueMatrix_kept {s₀ s : State} {x : Issue} {lt m what} (hk : Kept s₀ s) :
    Kept s₀ (x.issueMatrix lt m what s) := by
  unfold Issue.issueMatrix
  dsimp only
  split
  · next h =>
    obtain ⟨k, _, h⟩ := Option.bind_eq_some_iff.mp h
    exact State.enterMatrix_kept (Issue.holdMatrix_kept hk) h
  · exact Issue.block_kept (Issue.holdMatrix_kept hk)

theorem mxBody_kept {s₀ : State} {x} {s : State} (hk : Kept s₀ s) :
    Kept s₀ (mxBody x s).1 := by
  unfold mxBody
  repeat' (first | with_reducible assumption | (intro _) | with_reducible apply Issue.issueMatrix_kept
                 | with_reducible apply foldl_kept' | simp only [Kept.upd_iff] | split | dsimp only)

theorem mxChecked_kept {s₀ s : State} {x} (hk : Kept s₀ s) : Kept s₀ (mxChecked x s).1 := by
  have hb : ∀ y0 y1, Kept s₀ y1 → Kept s₀ ((fun (x : Issue) (s : State) => if x.maskWaits s then (s, Out.again)
      else unlessRaised Cause.matrixFault (mxErr Cause.matrixFault [9])
        (unlessRaised Cause.localRange (mxErr Cause.localRange []) mxBody) x s) y0 y1).1 := by
    intro y0 y1 h
    dsimp only
    split
    · exact h
    · exact unlessRaised_kept (fun _ _ h => unlessRaised_kept (fun _ _ h => mxBody_kept h) h) h
  unfold mxChecked
  simp only [List.foldr]
  exact unlessRaised_kept (fun _ _ h => unlessRaised_kept (fun _ _ h => unlessRaised_kept (fun _ _ h =>
    unlessRaised_kept (fun _ _ h => unlessRaised_kept hb h) h) h) h) hk

theorem State.settleHeldMatrix_kept {s₀ s : State} {k} (hk : Kept s₀ s) : Kept s₀ (s.settleHeldMatrix k) := by
  unfold State.settleHeldMatrix
  cases h : s.enterMatrix k with
  | none => exact hk
  | some u => exact State.enterMatrix_kept hk h

theorem State.settleMatrixWait_kept {s₀ : State} {s : State} {uid} {th} {cmds} {count} {d} (hk : Kept s₀ s) :
    Kept s₀ (State.settleMatrixWait s uid th cmds count d) := by
  unfold State.settleMatrixWait
  repeat' (first | with_reducible assumption | (intro _) | with_reducible apply State.wake_kept
                 | with_reducible apply State.give_kept | with_reducible apply foldl_kept' | simp only [Kept.upd_iff]
                 | split | dsimp only)

theorem Issue.mxopOne_kept {s₀ : State} {x} {s : State} {lt} (hk : Kept s₀ s) :
    Kept s₀ (Issue.mxopOne x s lt) := by
  unfold Issue.mxopOne
  repeat' (first | with_reducible assumption | (intro _) | with_reducible apply Issue.give_kept
                 | with_reducible apply Issue.holdMatrix_kept | with_reducible apply State.updThread_kept
                 | with_reducible apply Issue.block_kept | with_reducible apply foldl_kept' | split | dsimp only)

theorem mxopBody_kept {s₀ : State} {x} {s : State} (hk : Kept s₀ s) :
    Kept s₀ (mxopBody x s).1 := by
  unfold mxopBody
  repeat' (first | with_reducible assumption | (intro _) | with_reducible apply State.killPoisoned_kept
                 | with_reducible apply Issue.mxopOne_kept | with_reducible apply State.demandVa_kept
                 | with_reducible apply foldl_kept' | simp only [Kept.upd_iff] | split | dsimp only)

theorem MatrixOp.demand_kept {s₀ : State} {o} {s : State} {t} {ctx} (hk : Kept s₀ s) :
    Kept s₀ (MatrixOp.demand o s t ctx) := by
  unfold MatrixOp.demand
  repeat' (first | with_reducible assumption | (intro _) | with_reducible apply State.demandVa_kept
                 | with_reducible apply foldl_kept' | simp only [Kept.upd_iff] | split | dsimp only)

theorem MatrixCmd.takeSlot_kept {s₀ s u : State} {k : MatrixCmd} {t : Team} (hk : Kept s₀ s) :
    k.takeSlot s t = some u → Kept s₀ u := by
  unfold MatrixCmd.takeSlot
  intro ht
  repeat' (first | assumption | (split at ht) | (simp only [Option.some.injEq, reduceCtorEq] at ht) | (subst ht)
                 | apply State.updMatrix_kept | apply State.updTeam_kept)

theorem State.endMatrix_kept {s₀ : State} {s : State} {k} (hk : Kept s₀ s) :
    Kept s₀ (State.endMatrix s k) := by
  unfold State.endMatrix
  repeat' (first | with_reducible assumption | (intro _) | with_reducible apply State.updThread_kept
                 | with_reducible apply State.unregister_kept | with_reducible apply foldl_kept' | simp only [Kept.upd_iff]
                 | split | dsimp only)

theorem State.reregister_kept {s₀ : State} {s : State} {k} {t : State} (hk : Kept s₀ s) :
    (State.reregister s k) = some t → Kept s₀ t := by
  unfold State.reregister
  intro ht
  repeat' (first | assumption | (split at ht) | (simp only [Option.some.injEq, reduceCtorEq] at ht) | (subst ht) 
                 | with_reducible apply State.register_kept | with_reducible apply foldl_kept' | simp only [Kept.upd_iff]
                 | split | dsimp only)

theorem State.matrixStart_kept {s₀ s : State} {core} (hk : Kept s₀ s) : Kept s₀ (s.matrixStart core) := by
  unfold State.matrixStart
  split
  · exact hk
  · dsimp only
    split
    · exact hk
    · split
      · exact hk
      · split
        · exact hk
        · exact State.endMatrix_kept hk
        · split
          · exact hk
          · next h =>
            obtain ⟨u, h1, h2⟩ := Option.bind_eq_some_iff.mp h
            obtain ⟨t, _, h3⟩ := Option.bind_eq_some_iff.mp h2
            have hu := MatrixCmd.takeSlot_kept (State.reregister_kept hk h1) h3
            split
            · exact State.killPoisoned_kept (State.updMatrix_kept hu)
            · split
              · split
                · exact State.updMatrix_kept hu
                · exact Plan.apply_kept (State.updMatrix_kept hu)
              · exact MatrixOp.demand_kept (State.updMatrix_kept hu)

theorem State.endStream_kept {s₀ : State} {s : State} {t} {k} {r} (hk : Kept s₀ s) :
    Kept s₀ (State.endStream s t k r) := by
  unfold State.endStream
  repeat' (first | with_reducible assumption | (intro _) | with_reducible apply State.setEngine_kept
                 | with_reducible apply State.endMatrix_kept | with_reducible apply State.updTeam_kept
                 | with_reducible apply foldl_kept' | simp only [Kept.upd_iff] | split | dsimp only)

theorem State.completeMatrix_kept {s₀ : State} {s : State} {t} {k} (hk : Kept s₀ s) :
    Kept s₀ (State.completeMatrix s t k) := by
  unfold State.completeMatrix
  repeat' (first | with_reducible assumption | (intro _) | with_reducible apply State.endMatrix_kept
                 | with_reducible apply State.setEngine_kept | with_reducible apply Plan.apply_kept
                 | with_reducible apply State.endStream_kept | with_reducible apply foldl_kept' | split | dsimp only)

theorem State.matrixComplete_kept {s₀ : State} {s : State} {core} (hk : Kept s₀ s) :
    Kept s₀ (State.matrixComplete s core) := by
  unfold State.matrixComplete
  repeat' (first | with_reducible assumption | (intro _) | with_reducible apply State.killPoisoned_kept
                 | with_reducible apply State.completeMatrix_kept | with_reducible apply foldl_kept'
                 | simp only [Kept.upd_iff] | split | dsimp only)

theorem State.assistComplete_kept {s₀ : State} {s : State} {core} (hk : Kept s₀ s) :
    Kept s₀ (State.assistComplete s core) := by
  unfold State.assistComplete
  repeat' (first | with_reducible assumption | (intro _) | with_reducible apply State.setEngine_kept
                 | with_reducible apply State.endStream_kept | with_reducible apply foldl_kept' | simp only [Kept.upd_iff]
                 | split | dsimp only)

theorem State.cutStream_kept {s₀ : State} {s : State} {t} (hk : Kept s₀ s) :
    Kept s₀ (State.cutStream s t) := by
  unfold State.cutStream
  repeat' (first | with_reducible assumption | (intro _) | with_reducible apply State.setEngine_kept
                 | with_reducible apply foldl_kept' | split | dsimp only)

theorem State.matrixFault_kept {s₀ : State} {s : State} {core} (hk : Kept s₀ s) :
    Kept s₀ (State.matrixFault s core) := by
  unfold State.matrixFault
  repeat' (first | with_reducible assumption | (intro _) | with_reducible apply State.cutStream_kept
                 | with_reducible apply State.setEngine_kept | with_reducible apply Plan.apply_kept
                 | with_reducible apply State.unregister_kept | with_reducible apply State.updMatrix_kept
                 | with_reducible apply foldl_kept' | split | dsimp only)

theorem State.restartMatrix_kept {s₀ : State} {s : State} {uid} (hk : Kept s₀ s) :
    Kept s₀ (State.restartMatrix s uid) := by
  unfold State.restartMatrix
  repeat' (first | with_reducible assumption | (intro _) | with_reducible apply State.setEngine_kept
                 | with_reducible apply foldl_kept' | simp only [Kept.upd_iff] | split | dsimp only)

theorem State.skipMatrix_kept {s₀ : State} {s : State} {uid} (hk : Kept s₀ s) :
    Kept s₀ (State.skipMatrix s uid) := by
  unfold State.skipMatrix
  repeat' (first | with_reducible assumption | (intro _) | with_reducible apply Plan.apply_kept
                 | with_reducible apply State.setEngine_kept | with_reducible apply State.restartMatrix_kept
                 | with_reducible apply State.endMatrix_kept | with_reducible apply foldl_kept' | split | dsimp only)

theorem mresumeBody_kept {s₀ : State} {x} {s : State} (hk : Kept s₀ s) :
    Kept s₀ (mresumeBody x s).1 := by
  unfold mresumeBody
  repeat' (first | with_reducible assumption | (intro _) | with_reducible apply State.restartMatrix_kept
                 | with_reducible apply foldl_kept' | split | dsimp only)

theorem State.drainEngine_kept {s₀ : State} {s : State} {uid} (hk : Kept s₀ s) :
    Kept s₀ (State.drainEngine s uid) := by
  unfold State.drainEngine
  repeat' (first | with_reducible assumption | (intro _) | with_reducible apply State.cutStream_kept
                 | with_reducible apply foldl_kept' | simp only [Kept.upd_iff] | split | dsimp only)

theorem State.mwaitOver_kept {s₀ : State} {s : State} {t} {th} {n} {d} {u : State} (hk : Kept s₀ s) :
    (State.mwaitOver s t th n d) = some u → Kept s₀ u := by
  unfold State.mwaitOver
  intro ht
  repeat' (first | assumption | (split at ht) | (simp only [Option.some.injEq, reduceCtorEq] at ht) | (subst ht) 
                 | with_reducible apply State.updThread_kept | with_reducible apply State.acquireSpans_kept
                 | with_reducible apply State.give_kept | with_reducible apply foldl_kept' | simp only [Kept.upd_iff]
                 | split | dsimp only)

theorem State.settleMwait_kept {s₀ : State} {s : State} {t} {th} {n} {d} (hk : Kept s₀ s) :
    Kept s₀ (State.settleMwait s t th n d) := by
  unfold State.settleMwait
  repeat' (first | with_reducible assumption | (intro _) | with_reducible refine State.mwaitOver_kept ?_ (by assumption)
                 | with_reducible apply State.trapAlone_kept | with_reducible apply State.wake_kept
                 | with_reducible apply foldl_kept' | simp only [Kept.upd_iff] | split | dsimp only)

theorem Issue.mwaitOne_kept {s₀ s : State} {x lt} (hk : Kept s₀ s) : Kept s₀ (Issue.mwaitOne x s lt) := by
  unfold Issue.mwaitOne
  dsimp only
  cases h : s.mwaitOver x.team lt.2 (x.a lt 32) (x.dst lt) with
  | none => exact Issue.block_kept hk
  | some u => exact State.mwaitOver_kept hk h

theorem mwaitBody_kept {s₀ : State} {x} {s : State} (hk : Kept s₀ s) :
    Kept s₀ (mwaitBody x s).1 := by
  unfold mwaitBody
  repeat' (first | with_reducible assumption | (intro _) | with_reducible apply Issue.mwaitOne_kept
                 | with_reducible apply foldl_kept' | simp only [Kept.upd_iff] | split | dsimp only)

theorem State.reportMatrix_kept {s₀ : State} {s : State} {uid} (hk : Kept s₀ s) :
    Kept s₀ (State.reportMatrix s uid) := by
  unfold State.reportMatrix
  repeat' (first | with_reducible assumption | (intro _) | with_reducible apply State.report_kept
                 | with_reducible apply State.setEngine_kept | with_reducible apply State.endMatrix_kept
                 | with_reducible apply foldl_kept' | split | dsimp only)

theorem State.copyConsts_kept {s₀ : State} {s : State} {gid} {n} (hk : Kept s₀ s) :
    Kept s₀ (State.copyConsts s gid n) := by
  induction n generalizing s gid with
  | zero => exact hk
  | succ n ih =>
    unfold State.copyConsts
    try dsimp only
    repeat' (first | with_reducible assumption | (intro _) | with_reducible apply ih
                   | with_reducible apply State.killPoisoned_kept | with_reducible apply State.updGrid_kept
                   | with_reducible apply State.demandRead_kept | with_reducible apply foldl_kept'
                   | simp only [Kept.upd_iff] | split | dsimp only)

theorem State.deal_kept {s₀ : State} {s : State} {g} {is} (hk : Kept s₀ s) :
    Kept s₀ (State.deal s g is) := by
  induction is generalizing s g with
  | nil => exact hk
  | cons a l ih =>
    unfold State.deal
    try dsimp only
    repeat' (first | with_reducible assumption | (intro _) | with_reducible apply ih | with_reducible apply State.tick_kept
                   | with_reducible apply foldl_kept' | simp only [Kept.upd_iff] | split | dsimp only)

theorem State.accept_kept {s₀ : State} {s : State} {origin} {depth} {r} {pages} (hk : Kept s₀ s) :
    Kept s₀ (State.accept s origin depth r pages).1 := by
  unfold State.accept
  repeat' (first | with_reducible assumption | (intro _) | with_reducible apply State.tick_kept
                 | with_reducible apply State.noteAct_kept | with_reducible apply State.copyConsts_kept
                 | with_reducible apply State.deal_kept | with_reducible apply foldl_kept' | simp only [Kept.upd_iff]
                 | split | dsimp only)

theorem State.takeGranules_kept {s₀ : State} {s : State} {uid} {n} (hk : Kept s₀ s) :
    Kept s₀ (State.takeGranules s uid n).1 := by
  unfold State.takeGranules
  repeat' (first | with_reducible assumption | (intro _) | with_reducible apply State.dropCopies_kept
                 | with_reducible apply State.tick_kept | with_reducible apply State.updTeam_kept
                 | with_reducible apply foldl_kept' | simp only [Kept.upd_iff] | split | dsimp only)

theorem placeOn_kept {s₀ : State} {s : State} {t} {core} {reserved} (hk : Kept s₀ s) :
    Kept s₀ (placeOn s t core reserved).1 := by
  unfold placeOn
  repeat' (first | with_reducible assumption | (intro _) | with_reducible apply State.updTeam_kept
                 | with_reducible apply State.takeGranules_kept | with_reducible apply foldl_kept'
                 | simp only [Kept.upd_iff] | split | dsimp only)

theorem State.startTeam_kept {s₀ : State} {s : State} {uid} {fill} (hk : Kept s₀ s) :
    Kept s₀ (State.startTeam s uid fill) := by
  unfold State.startTeam
  repeat' (first | with_reducible assumption | (intro _) | with_reducible apply State.addWave_kept
                 | with_reducible apply State.updTeam_kept | with_reducible apply State.flash_kept
                 | with_reducible apply State.setEngine_kept | with_reducible refine State.request_kept ?_ (by assumption)
                 | with_reducible apply foldl_kept' | split | dsimp only)

theorem State.teamDispatch_kept {s₀ : State} {s : State} {die} (hk : Kept s₀ s) :
    Kept s₀ (State.teamDispatch s die) := by
  unfold State.teamDispatch
  repeat' (first | with_reducible assumption | (intro _) | with_reducible apply placeOn_kept
                 | with_reducible apply State.startTeam_kept | with_reducible apply foldl_kept' | split | dsimp only)

theorem State.swapTeam_kept {s₀ : State} {s : State} {t} (hk : Kept s₀ s) :
    Kept s₀ (State.swapTeam s t) := by
  unfold State.swapTeam
  repeat' (first | with_reducible assumption | (intro _) | with_reducible apply State.updTeam_kept
                 | with_reducible apply State.noteAct_kept | with_reducible apply State.drainEngine_kept
                 | with_reducible apply State.homeWrite_kept | with_reducible apply foldl_kept' | split | dsimp only)

theorem State.swapOut_kept {s₀ : State} {s : State} {die} (hk : Kept s₀ s) :
    Kept s₀ (State.swapOut s die) := by
  unfold State.swapOut
  repeat' (first | with_reducible assumption | (intro _) | with_reducible apply State.swapTeam_kept
                 | with_reducible apply foldl_kept' | simp only [Kept.upd_iff] | split | dsimp only)

theorem State.swapIn_kept {s₀ : State} {s : State} {die} (hk : Kept s₀ s) :
    Kept s₀ (State.swapIn s die) := by
  unfold State.swapIn
  repeat' (first | with_reducible assumption | (intro _) | with_reducible apply State.flash_kept
                 | with_reducible apply placeOn_kept | with_reducible apply foldl_kept' | simp only [Kept.upd_iff] | split
                 | dsimp only)

theorem State.migrate_kept {s₀ : State} {s : State} {src} {dst} (hk : Kept s₀ s) :
    Kept s₀ (State.migrate s src dst) := by
  unfold State.migrate
  repeat' (first | with_reducible assumption | (intro _) | with_reducible apply foldl_kept' | simp only [Kept.upd_iff]
                 | split | dsimp only)

theorem Issue.launchOne_kept {s₀ : State} {x} {s : State} {lt} (hk : Kept s₀ s) :
    Kept s₀ (Issue.launchOne x s lt) := by
  unfold Issue.launchOne
  repeat' (first | with_reducible assumption | (intro _) | with_reducible apply Issue.post_kept
                 | with_reducible apply foldl_kept' | simp only [Kept.upd_iff] | split | dsimp only)

theorem launchBody_kept {s₀ : State} {x} {s : State} (hk : Kept s₀ s) :
    Kept s₀ (launchBody x s).1 := by
  unfold launchBody
  repeat' (first | with_reducible assumption | (intro _) | with_reducible apply State.killPoisoned_kept
                 | with_reducible apply State.demandVa_kept | with_reducible apply Issue.give_kept
                 | with_reducible apply afterRelease_kept | with_reducible apply Issue.launchOne_kept
                 | with_reducible apply foldl_kept' | split | dsimp only)

theorem State.settlePost_kept {s₀ s : State} {t th r fault d} (hk : Kept s₀ s) :
    Kept s₀ (s.settlePost t th r fault d) := by
  have hd : ∀ {u : State} {w}, Kept s₀ u → Kept s₀ ((u.give t.uid th.tid d 32 w).wake t.uid th.tid) :=
    fun h => State.wake_kept (State.give_kept h)
  unfold State.settlePost
  dsimp only
  split
  · exact hk
  · next h =>
    cases fault with
    | some i => exact absurd h (by simp)
    | none =>
      split
      · exact hd (State.enter_kept hk)
      · exact hd (State.writeRing_kept hk h)
  · split
    · next h => exact hd (State.stage_kept hk h)
    · exact State.updThread_kept hk

theorem State.launchAccept_kept {s₀ : State} {s : State} {cluster} (hk : Kept s₀ s) :
    Kept s₀ (State.launchAccept s cluster) := by
  unfold State.launchAccept
  repeat' (first | with_reducible assumption | (intro _) | with_reducible apply State.noteAct_kept
                 | with_reducible apply State.accept_kept | with_reducible apply foldl_kept' | simp only [Kept.upd_iff]
                 | split | dsimp only)

theorem State.constantCopy_kept {s₀ : State} {s : State} {gid} (hk : Kept s₀ s) :
    Kept s₀ (State.constantCopy s gid) := by
  unfold State.constantCopy
  repeat' (first | with_reducible assumption | (intro _) | with_reducible apply State.copyConsts_kept
                 | with_reducible apply foldl_kept' | simp only [Kept.upd_iff] | split | dsimp only)

theorem State.takeNext_kept {s₀ : State} {s : State} {ctx} (hk : Kept s₀ s) :
    Kept s₀ (State.takeNext s ctx) := by
  unfold State.takeNext
  repeat' (first | with_reducible assumption | (intro _) | with_reducible apply State.updCtx_kept
                 | with_reducible apply foldl_kept' | simp only [Kept.upd_iff] | split | dsimp only)

theorem State.dlrDrain_kept {s₀ : State} {s : State} {ctx} (hk : Kept s₀ s) :
    Kept s₀ (State.dlrDrain s ctx) := by
  unfold State.dlrDrain
  repeat' (first | with_reducible assumption | (intro _) | with_reducible apply State.report_kept
                 | with_reducible apply State.updCtx_kept | with_reducible apply State.killPoisoned_kept
                 | with_reducible apply State.demandVa_kept | with_reducible apply State.takeNext_kept
                 | with_reducible apply foldl_kept' | simp only [Kept.upd_iff] | split | dsimp only)

theorem retryStaged_kept {s₀ : State} {s : State} {rs} (hk : Kept s₀ s) :
    Kept s₀ (retryStaged s rs) := by
  induction rs generalizing s with
  | nil => exact hk
  | cons a l ih =>
    unfold retryStaged
    try dsimp only
    repeat' (first | with_reducible assumption | (intro _) | with_reducible apply ih
                   | with_reducible refine State.writeRing_kept ?_ (by assumption) | with_reducible apply State.enter_kept
                   | with_reducible refine State.stage_kept ?_ (by assumption) | with_reducible apply foldl_kept'
                   | simp only [Kept.upd_iff] | split | dsimp only)

theorem State.stagingRetry_kept {s₀ : State} {s : State} {cluster} {ctx} (hk : Kept s₀ s) :
    Kept s₀ (State.stagingRetry s cluster ctx) := by
  unfold State.stagingRetry
  repeat' (first | with_reducible assumption | (intro _) | with_reducible apply retryStaged_kept
                 | with_reducible apply foldl_kept' | simp only [Kept.upd_iff] | split | dsimp only)

theorem Issue.growOne_kept {s₀ : State} {x} {s : State} {lt} (hk : Kept s₀ s) :
    Kept s₀ (Issue.growOne x s lt) := by
  unfold Issue.growOne
  repeat' (first | with_reducible assumption | (intro _) | with_reducible apply Issue.give_kept
                 | with_reducible apply State.updTeam_kept | with_reducible apply Issue.block_kept
                 | with_reducible apply foldl_kept' | split | dsimp only)

theorem growBody_kept {s₀ : State} {x} {s : State} (hk : Kept s₀ s) :
    Kept s₀ (growBody x s).1 := by
  unfold growBody
  repeat' (first | with_reducible assumption | (intro _) | with_reducible apply Issue.growOne_kept
                 | with_reducible apply foldl_kept' | simp only [Kept.upd_iff] | split | dsimp only)

theorem State.settleGrow_kept {s₀ : State} {s : State} {t} (hk : Kept s₀ s) :
    Kept s₀ (State.settleGrow s t) := by
  unfold State.settleGrow
  repeat' (first | with_reducible assumption | (intro _) | with_reducible apply State.takeGranules_kept
                 | with_reducible apply State.updTeam_kept | with_reducible apply State.wake_kept
                 | with_reducible apply State.pendAll_kept | with_reducible apply foldl_kept' | split | dsimp only)

theorem State.startSuccessor_kept {s₀ : State} {s : State} {g} (hk : Kept s₀ s) :
    Kept s₀ (State.startSuccessor s g) := by
  unfold State.startSuccessor
  repeat' (first | with_reducible assumption | (intro _) | with_reducible apply State.updGrid_kept
                 | with_reducible apply State.killPoisoned_kept | with_reducible apply State.demandVa_kept
                 | with_reducible apply State.accept_kept | with_reducible apply foldl_kept' | split | dsimp only)

theorem State.earlyTriggers_kept {s₀ : State} {s : State} {gs} (hk : Kept s₀ s) :
    Kept s₀ (State.earlyTriggers s gs) := by
  induction gs generalizing s with
  | nil => exact hk
  | cons a l ih =>
    unfold State.earlyTriggers
    try dsimp only
    repeat' (first | with_reducible assumption | (intro _) | with_reducible apply ih
                   | with_reducible apply State.startSuccessor_kept | with_reducible apply foldl_kept'
                   | simp only [Kept.upd_iff] | split | dsimp only)

theorem State.notice_kept {s₀ : State} {s : State} {ctx} {code} {body} (hk : Kept s₀ s) :
    Kept s₀ (State.notice s ctx code body) := by
  unfold State.notice
  repeat' (first | with_reducible assumption | (intro _) | with_reducible apply State.post_kept
                 | with_reducible apply foldl_kept' | simp only [Kept.upd_iff] | split | dsimp only)

theorem State.decrementJoin_kept {s₀ : State} {s : State} {ctx} {gid} {va} (hk : Kept s₀ s) :
    Kept s₀ (State.decrementJoin s ctx gid va) := by
  unfold State.decrementJoin
  repeat' (first | with_reducible assumption | (intro _) | with_reducible apply State.report_kept
                 | with_reducible apply State.demandRead_kept | with_reducible apply State.forceRecall_kept
                 | with_reducible apply State.killPoisoned_kept | with_reducible apply State.homeWrite_kept
                 | with_reducible apply foldl_kept' | split | dsimp only)

theorem State.retryJoin_kept {s₀ : State} {s : State} {ctx} {gid} {va} (hk : Kept s₀ s) :
    Kept s₀ (State.retryJoin s ctx gid va) := by
  unfold State.retryJoin
  repeat' (first | with_reducible assumption | (intro _) | with_reducible apply State.updCtx_kept
                 | with_reducible apply State.decrementJoin_kept | with_reducible apply foldl_kept'
                 | simp only [Kept.upd_iff] | split | dsimp only)

theorem State.settleJoins_kept {s₀ : State} {s : State} {cs} (hk : Kept s₀ s) :
    Kept s₀ (State.settleJoins s cs) := by
  induction cs generalizing s with
  | nil => exact hk
  | cons a l ih =>
    unfold State.settleJoins
    try dsimp only
    repeat' (first | with_reducible assumption | (intro _) | with_reducible apply ih
                   | with_reducible apply State.retryJoin_kept | with_reducible apply State.updCtx_kept
                   | with_reducible apply foldl_kept' | simp only [Kept.upd_iff] | split | dsimp only)

theorem State.gridComplete_kept {s₀ : State} {s : State} {gid} (hk : Kept s₀ s) :
    Kept s₀ (State.gridComplete s gid) := by
  unfold State.gridComplete
  repeat' (first | with_reducible assumption | (intro _) | with_reducible apply State.decrementJoin_kept
                 | with_reducible apply State.startSuccessor_kept | with_reducible apply State.notice_kept
                 | with_reducible apply foldl_kept' | simp only [Kept.upd_iff] | split | dsimp only)

theorem State.fillMap_kept {s₀ : State} {s : State} {die} {ctx} {i} (hk : Kept s₀ s) :
    Kept s₀ (State.fillMap s die ctx i) := by
  unfold State.fillMap
  repeat' (first | with_reducible assumption | (intro _) | with_reducible apply State.demandRead_kept
                 | with_reducible apply foldl_kept' | simp only [Kept.upd_iff] | split | dsimp only)

theorem State.dropMap_kept {s₀ : State} {s : State} {ctx} {i} (hk : Kept s₀ s) :
    Kept s₀ (State.dropMap s ctx i) := by
  unfold State.dropMap
  repeat' (first | with_reducible assumption | (intro _) | with_reducible apply foldl_kept' | simp only [Kept.upd_iff]
                 | split | dsimp only)

theorem Issue.remoteOne_kept {s₀ : State} {x} {s : State} {lt} (hk : Kept s₀ s) :
    Kept s₀ (Issue.remoteOne x s lt) := by
  unfold Issue.remoteOne
  repeat' (first | with_reducible assumption | (intro _) | with_reducible apply State.tick_kept
                 | with_reducible apply foldl_kept' | simp only [Kept.upd_iff] | split | dsimp only)

theorem mapSound_kept {s₀ : State} {bad} {body : Issue → State → State × Out} {x} {s : State} (hf : ∀ y0 y1, Kept s₀ y1 →
    Kept s₀ (body y0 y1).1) (hk : Kept s₀ s) :
    Kept s₀ (mapSound bad body x s).1 := by
  unfold mapSound
  repeat' (first | with_reducible assumption | (intro _) | with_reducible apply hf
                 | with_reducible apply State.killPoisoned_kept | with_reducible apply foldl_kept'
                 | simp only [Kept.upd_iff] | split | dsimp only)

theorem fabricBody_kept {s₀ : State} {x} {s : State} (hk : Kept s₀ s) :
    Kept s₀ (fabricBody x s).1 := by
  unfold fabricBody
  repeat' (first | with_reducible assumption | (intro _) | with_reducible apply Issue.remoteOne_kept
                 | with_reducible apply foldl_kept' | simp only [Kept.upd_iff] | split | dsimp only)

theorem fabricOp_kept {s₀ : State} {b0} {b1 : State} (hk : Kept s₀ b1) :
    Kept s₀ (fabricOp b0 b1).1 := by
  unfold fabricOp
  repeat' (first | with_reducible assumption | (intro _) | with_reducible apply nacksFirst_kept
                 | with_reducible apply unlessRaised_kept | with_reducible apply whenReady_kept
                 | with_reducible apply mapSound_kept | with_reducible apply fabricBody_kept
                 | with_reducible apply foldl_kept' | simp only [Kept.upd_iff] | split | dsimp only)

theorem State.updRemote_kept {s₀ : State} {s : State} {id} {f} (hk : Kept s₀ s) :
    Kept s₀ (State.updRemote s id f) := by
  unfold State.updRemote
  repeat' (first | with_reducible assumption | (intro _) | with_reducible apply foldl_kept' | simp only [Kept.upd_iff]
                 | split | dsimp only)

theorem State.startPackets_kept {s₀ : State} {s : State} {r} {b} {prio} {ds} (hk : Kept s₀ s) :
    Kept s₀ (State.startPackets s r b prio ds) := by
  induction ds generalizing s r b prio with
  | nil => exact hk
  | cons a l ih =>
    unfold State.startPackets
    try dsimp only
    repeat' (first | with_reducible assumption | (intro _) | with_reducible apply ih | with_reducible apply State.tick_kept
                   | with_reducible apply State.updRemote_kept | with_reducible apply foldl_kept' | simp only [Kept.upd_iff]
                   | split | dsimp only)

theorem State.sendRemote_kept {s₀ : State} {s : State} {r} (hk : Kept s₀ s) :
    Kept s₀ (State.sendRemote s r) := by
  unfold State.sendRemote
  repeat' (first | with_reducible assumption | (intro _) | with_reducible apply State.updRemote_kept
                 | with_reducible apply State.startPackets_kept | with_reducible apply State.tick_kept
                 | with_reducible apply State.killPoisoned_kept | with_reducible apply State.demandVa_kept
                 | with_reducible apply foldl_kept' | split | dsimp only)

theorem State.sendRemotes_kept {s₀ : State} {s : State} {rs} (hk : Kept s₀ s) :
    Kept s₀ (State.sendRemotes s rs) := by
  induction rs generalizing s with
  | nil => exact hk
  | cons a l ih =>
    unfold State.sendRemotes
    try dsimp only
    repeat' (first | with_reducible assumption | (intro _) | with_reducible apply ih
                   | with_reducible apply State.sendRemote_kept | with_reducible apply foldl_kept'
                   | simp only [Kept.upd_iff] | split | dsimp only)

theorem State.countIn_kept {s₀ : State} {s : State} {port} (hk : Kept s₀ s) :
    Kept s₀ (State.countIn s port) := by
  unfold State.countIn
  repeat' (first | with_reducible assumption | (intro _) | with_reducible apply foldl_kept' | simp only [Kept.upd_iff]
                 | split | dsimp only)

theorem State.refuse_kept {s₀ : State} {s : State} {id} {reason} (hk : Kept s₀ s) :
    Kept s₀ (State.refuse s id reason) := by
  unfold State.refuse
  repeat' (first | with_reducible assumption | (intro _) | with_reducible apply State.updRemote_kept
                 | with_reducible apply foldl_kept' | simp only [Kept.upd_iff] | split | dsimp only)

theorem State.answered_kept {s₀ : State} {s : State} {id} {reason} (hk : Kept s₀ s) :
    Kept s₀ (State.answered s id reason) := by
  unfold State.answered
  repeat' (first | with_reducible assumption | (intro _) | with_reducible apply State.refuse_kept
                 | with_reducible apply foldl_kept' | simp only [Kept.upd_iff] | split | dsimp only)

theorem State.takeAnswer_kept {s₀ : State} {s : State} {r} {reason} (hk : Kept s₀ s) :
    Kept s₀ (State.takeAnswer s r reason) := by
  unfold State.takeAnswer
  repeat' (first | with_reducible assumption | (intro _) | with_reducible apply State.countIn_kept
                 | with_reducible apply State.answered_kept | with_reducible apply foldl_kept' | split | dsimp only)

theorem State.remoteAck_kept {s₀ : State} {s : State} {id} (hk : Kept s₀ s) :
    Kept s₀ (State.remoteAck s id) := by
  unfold State.remoteAck
  repeat' (first | with_reducible assumption | (intro _) | with_reducible apply State.takeAnswer_kept
                 | with_reducible apply foldl_kept' | simp only [Kept.upd_iff] | split | dsimp only)

theorem State.fabricNack_kept {s₀ : State} {s : State} {id} {reason} (hk : Kept s₀ s) :
    Kept s₀ (State.fabricNack s id reason) := by
  unfold State.fabricNack
  repeat' (first | with_reducible assumption | (intro _) | with_reducible apply State.takeAnswer_kept
                 | with_reducible apply foldl_kept' | simp only [Kept.upd_iff] | split | dsimp only)

theorem State.retryRemote_kept {s₀ : State} {s : State} {r} (hk : Kept s₀ s) :
    Kept s₀ (State.retryRemote s r) := by
  unfold State.retryRemote
  repeat' (first | with_reducible assumption | (intro _) | with_reducible apply State.updRemote_kept
                 | with_reducible apply foldl_kept' | simp only [Kept.upd_iff] | split | dsimp only)

theorem State.skipRemote_kept {s₀ : State} {s : State} {r} (hk : Kept s₀ s) :
    Kept s₀ (State.skipRemote s r) := by
  unfold State.skipRemote
  repeat' (first | with_reducible assumption | (intro _) | with_reducible apply foldl_kept' | simp only [Kept.upd_iff]
                 | split | dsimp only)

theorem State.reportRemotes_kept {s₀ : State} {s : State} {rs} (hk : Kept s₀ s) :
    Kept s₀ (State.reportRemotes s rs) := by
  induction rs generalizing s with
  | nil => exact hk
  | cons a l ih =>
    unfold State.reportRemotes
    try dsimp only
    repeat' (first | with_reducible assumption | (intro _) | with_reducible apply ih
                   | with_reducible apply State.report_kept | with_reducible apply State.updRemote_kept
                   | with_reducible apply foldl_kept' | simp only [Kept.upd_iff] | split | dsimp only)

theorem State.answer_kept {s₀ s : State} {v reason} (hk : Kept s₀ s) : Kept s₀ (s.answer v reason) := by
  unfold State.answer
  exact Kept.upd hk

theorem State.arrival_kept {s₀ : State} {s : State} {v} {ctx} {va} {n} {a} {act : List Part → State → State × Option Nat}
    (hk : Kept s₀ s) (hf : ∀ y0 y1, Kept s₀ y1 → Kept s₀ (act y0 y1).1) :
    Kept s₀ (State.arrival s v ctx va n a act) := by
  unfold State.arrival
  repeat' (first | with_reducible assumption | (intro _) | with_reducible apply hf | with_reducible apply State.countIn_kept
                 | with_reducible apply State.answer_kept | with_reducible apply foldl_kept' | split | dsimp only)

theorem State.remoteWrite_kept {s₀ : State} {s : State} {v} {ctx} {va} {data} (hk : Kept s₀ s) :
    Kept s₀ (State.remoteWrite s v ctx va data) := by
  unfold State.remoteWrite
  repeat' (first | with_reducible assumption | (intro _) | with_reducible apply State.arrival_kept
                 | with_reducible apply State.homeWrite_kept | with_reducible apply foldl_kept' | simp only [Kept.upd_iff]
                 | split | dsimp only)

theorem State.rsigArrival_kept {s₀ : State} {s : State} {v} {ctx} {va} {addend} (hk : Kept s₀ s) :
    Kept s₀ (State.rsigArrival s v ctx va addend) := by
  unfold State.rsigArrival
  repeat' (first | with_reducible assumption | (intro _) | with_reducible apply State.arrival_kept
                 | with_reducible apply State.forceRecall_kept | with_reducible apply State.killPoisoned_kept
                 | with_reducible apply State.homeWrite_kept | with_reducible apply foldl_kept' | split | dsimp only)

theorem State.runHandler_kept {s₀ : State} {s : State} {ctx} {va} {h} {payload} {p} (hk : Kept s₀ s) :
    Kept s₀ (State.runHandler s ctx va h payload p).1 := by
  unfold State.runHandler
  repeat' (first | with_reducible assumption | (intro _) | with_reducible apply State.forceRecall_kept
                 | with_reducible apply State.killPoisoned_kept | with_reducible apply State.homeWrite_kept
                 | with_reducible apply State.demandRead_kept | with_reducible apply foldl_kept' | split | dsimp only)

theorem State.amsgArrival_kept {s₀ : State} {s : State} {source} {va} {h} {payload} (hk : Kept s₀ s) :
    Kept s₀ (State.amsgArrival s source va h payload) := by
  unfold State.amsgArrival
  repeat' (first | with_reducible assumption | (intro _) | with_reducible apply State.arrival_kept
                 | with_reducible apply State.runHandler_kept | with_reducible apply State.updRemote_kept
                 | with_reducible apply State.answered_kept | with_reducible apply foldl_kept' | split | dsimp only)

theorem State.dropPacket_kept {s₀ : State} {s : State} {p} (hk : Kept s₀ s) :
    Kept s₀ (State.dropPacket s p) := by
  unfold State.dropPacket
  repeat' (first | with_reducible assumption | (intro _) | with_reducible apply State.refuse_kept
                 | with_reducible apply foldl_kept' | simp only [Kept.upd_iff] | split | dsimp only)

theorem State.deliver_kept {s₀ : State} {s : State} {p} (hk : Kept s₀ s) :
    Kept s₀ (State.deliver s p) := by
  unfold State.deliver
  repeat' (first | with_reducible assumption | (intro _) | with_reducible apply State.updRemote_kept
                 | with_reducible apply State.tick_kept | with_reducible apply foldl_kept' | simp only [Kept.upd_iff]
                 | split | dsimp only)

theorem State.packetForward_kept {s₀ : State} {s : State} {sw} {port} (hk : Kept s₀ s) :
    Kept s₀ (State.packetForward s sw port) := by
  unfold State.packetForward
  repeat' (first | with_reducible assumption | (intro _) | with_reducible apply State.dropPacket_kept
                 | with_reducible apply State.deliver_kept | with_reducible apply foldl_kept' | simp only [Kept.upd_iff]
                 | split | dsimp only)

theorem State.packetAgeTick_kept {s₀ : State} {s : State} {id} (hk : Kept s₀ s) :
    Kept s₀ (State.packetAgeTick s id) := by
  unfold State.packetAgeTick
  repeat' (first | with_reducible assumption | (intro _) | with_reducible apply foldl_kept' | simp only [Kept.upd_iff]
                 | split | dsimp only)

theorem State.ueReply_kept {s₀ : State} {s : State} {h} {code} {status} {body} (hk : Kept s₀ s) :
    Kept s₀ (State.ueReply s h code status body) := by
  unfold State.ueReply
  repeat' (first | with_reducible assumption | (intro _) | with_reducible apply State.post_kept
                 | with_reducible apply foldl_kept' | simp only [Kept.upd_iff] | split | dsimp only)

theorem State.ueAccess_kept {s₀ : State} {s : State} {h} {act : State → State} (hk : Kept s₀ s) (hf : ∀ y0, Kept s₀ y0 →
    Kept s₀ (act y0)) :
    Kept s₀ (State.ueAccess s h act) := by
  unfold State.ueAccess
  repeat' (first | with_reducible assumption | (intro _) | with_reducible apply hf | with_reducible apply State.heard_kept
                 | with_reducible apply foldl_kept' | simp only [Kept.upd_iff] | split | dsimp only)

theorem State.ueWrite_kept {s₀ : State} {s : State} {h} {va} {data} (hk : Kept s₀ s) :
    Kept s₀ (State.ueWrite s h va data) := by
  unfold State.ueWrite
  repeat' (first | with_reducible assumption | (intro _) | with_reducible apply State.ueAccess_kept
                 | with_reducible apply State.ueReply_kept | with_reducible apply State.homeWrite_kept
                 | with_reducible apply foldl_kept' | simp only [Kept.upd_iff] | split | dsimp only)

theorem State.ueRead_kept {s₀ : State} {s : State} {h} {va} {n} (hk : Kept s₀ s) :
    Kept s₀ (State.ueRead s h va n) := by
  unfold State.ueRead
  repeat' (first | with_reducible assumption | (intro _) | with_reducible apply State.ueAccess_kept
                 | with_reducible apply State.ueReply_kept | with_reducible apply State.demandRead_kept
                 | with_reducible apply State.demandVa_kept | with_reducible apply foldl_kept' | simp only [Kept.upd_iff]
                 | split | dsimp only)

theorem State.reply_kept {s₀ : State} {s : State} {h} {cmd} {status} {body} (hk : Kept s₀ s) :
    Kept s₀ (State.reply s h cmd status body) := by
  unfold State.reply
  repeat' (first | with_reducible assumption | (intro _) | with_reducible apply State.post_kept
                 | with_reducible apply foldl_kept' | simp only [Kept.upd_iff] | split | dsimp only)

theorem State.deny_kept {s₀ : State} {s : State} {h} {cmd} {code} (hk : Kept s₀ s) :
    Kept s₀ (State.deny s h cmd code) := by
  unfold State.deny
  repeat' (first | with_reducible assumption | (intro _) | with_reducible apply State.reply_kept
                 | with_reducible apply foldl_kept' | simp only [Kept.upd_iff] | split | dsimp only)

theorem State.command_kept {s₀ : State} {s : State} {cmd} {h} {body} {act : Sys2Proof.CmdHdr → State → State} (hk : Kept s₀
    s) (hf : ∀ y0 y1, Kept s₀ y1 → Kept s₀ (act y0 y1)) :
    Kept s₀ (State.command s cmd h body act) := by
  unfold State.command
  repeat' (first | with_reducible assumption | (intro _) | with_reducible apply hf | with_reducible apply State.heard_kept
                 | with_reducible apply State.deny_kept | with_reducible apply foldl_kept' | split | dsimp only)

theorem State.hostLaunch_kept {s₀ : State} {s : State} {h} {body} (hk : Kept s₀ s) :
    Kept s₀ (State.hostLaunch s h body) := by
  unfold State.hostLaunch
  repeat' (first | with_reducible assumption | (intro _) | with_reducible apply State.command_kept
                 | with_reducible apply State.reply_kept | with_reducible apply State.accept_kept
                 | with_reducible apply foldl_kept' | split | dsimp only)

theorem State.startHandler_kept {s₀ : State} {s : State} {num} (hk : Kept s₀ s) :
    Kept s₀ (State.startHandler s num) := by
  unfold State.startHandler
  repeat' (first | with_reducible assumption | (intro _) | with_reducible apply State.accept_kept
                 | with_reducible apply State.updCtx_kept | with_reducible apply foldl_kept' | split | dsimp only)

theorem State.contextLoad_kept {s₀ : State} {s : State} {h} {body} (hk : Kept s₀ s) :
    Kept s₀ (State.contextLoad s h body) := by
  unfold State.contextLoad
  repeat' (first | with_reducible assumption | (intro _) | with_reducible apply State.command_kept
                 | with_reducible apply State.deny_kept | with_reducible apply State.reply_kept
                 | with_reducible apply State.startHandler_kept | with_reducible apply State.updCtx_kept
                 | with_reducible apply foldl_kept' | simp only [Kept.upd_iff] | split | dsimp only)

theorem State.clearLeaves_kept {s₀ : State} {s : State} {c} (hk : Kept s₀ s) :
    Kept s₀ (State.clearLeaves s c) := by
  unfold State.clearLeaves
  repeat' (first | with_reducible assumption | (intro _) | with_reducible apply State.homeWrite_kept
                 | with_reducible apply foldl_kept' | simp only [Kept.upd_iff] | split | dsimp only)

theorem State.dropPolders_kept {s₀ : State} {s : State} {num} (hk : Kept s₀ s) :
    Kept s₀ (State.dropPolders s num) := by
  unfold State.dropPolders
  repeat' (first | with_reducible assumption | (intro _) | with_reducible apply State.discardPolder_kept
                 | with_reducible apply foldl_kept' | simp only [Kept.upd_iff] | split | dsimp only)

theorem State.depart_kept {s₀ : State} {s : State} {num} (hk : Kept s₀ s) :
    Kept s₀ (State.depart s num) := by
  unfold State.depart
  repeat' (first | with_reducible assumption | (intro _) | with_reducible apply State.stopWork_kept
                 | with_reducible apply State.clearLeaves_kept | with_reducible apply State.dropPolders_kept
                 | with_reducible apply foldl_kept' | simp only [Kept.upd_iff] | split | dsimp only)

theorem State.contextUnload_kept {s₀ : State} {s : State} {h} {body} (hk : Kept s₀ s) :
    Kept s₀ (State.contextUnload s h body) := by
  unfold State.contextUnload
  repeat' (first | with_reducible assumption | (intro _) | with_reducible apply State.command_kept
                 | with_reducible apply State.deny_kept | with_reducible apply State.reply_kept
                 | with_reducible apply State.depart_kept | with_reducible apply State.updCtx_kept
                 | with_reducible apply foldl_kept' | simp only [Kept.upd_iff] | split | dsimp only)

theorem State.settleUnloads_kept {s₀ : State} {s : State} {cs} (hk : Kept s₀ s) :
    Kept s₀ (State.settleUnloads s cs) := by
  induction cs generalizing s with
  | nil => exact hk
  | cons a l ih =>
    unfold State.settleUnloads
    try dsimp only
    repeat' (first | with_reducible assumption | (intro _) | with_reducible apply ih | with_reducible apply State.reply_kept
                   | with_reducible apply State.depart_kept | with_reducible apply foldl_kept' | simp only [Kept.upd_iff]
                   | split | dsimp only)

theorem State.contextResume_kept {s₀ : State} {s : State} {h} {body} (hk : Kept s₀ s) :
    Kept s₀ (State.contextResume s h body) := by
  unfold State.contextResume
  repeat' (first | with_reducible assumption | (intro _) | with_reducible apply State.command_kept
                 | with_reducible apply State.reply_kept | with_reducible apply State.updCtx_kept
                 | with_reducible apply State.deny_kept | with_reducible apply foldl_kept' | simp only [Kept.upd_iff]
                 | split | dsimp only)

theorem State.contextKill_kept {s₀ : State} {s : State} {h} {body} (hk : Kept s₀ s) :
    Kept s₀ (State.contextKill s h body) := by
  unfold State.contextKill
  repeat' (first | with_reducible assumption | (intro _) | with_reducible apply State.command_kept
                 | with_reducible apply State.deny_kept | with_reducible apply State.updCtx_kept
                 | with_reducible apply State.kill_kept | with_reducible apply foldl_kept' | simp only [Kept.upd_iff]
                 | split | dsimp only)

theorem State.preempt_kept {s₀ : State} {s : State} {h} {body} (hk : Kept s₀ s) :
    Kept s₀ (State.preempt s h body) := by
  unfold State.preempt
  repeat' (first | with_reducible assumption | (intro _) | with_reducible apply State.command_kept
                 | with_reducible apply State.deny_kept | with_reducible apply State.updCtx_kept
                 | with_reducible apply foldl_kept' | split | dsimp only)

theorem State.flip_kept {s₀ : State} {s : State} {h} {body} (hk : Kept s₀ s) :
    Kept s₀ (State.flip s h body) := by
  unfold State.flip
  repeat' (first | with_reducible assumption | (intro _) | with_reducible apply State.command_kept
                 | with_reducible apply State.reply_kept | with_reducible apply State.deny_kept
                 | with_reducible apply foldl_kept' | simp only [Kept.upd_iff] | split | dsimp only)

theorem State.xlateInval_kept {s₀ : State} {s : State} {h} {body} (hk : Kept s₀ s) :
    Kept s₀ (State.xlateInval s h body) := by
  unfold State.xlateInval
  repeat' (first | with_reducible assumption | (intro _) | with_reducible apply State.command_kept
                 | with_reducible apply State.deny_kept | with_reducible apply State.reply_kept
                 | with_reducible apply foldl_kept' | simp only [Kept.upd_iff] | split | dsimp only)

theorem State.corrected_kept {s₀ : State} {s : State} (hk : Kept s₀ s) :
    Kept s₀ (State.corrected s) := by
  unfold State.corrected
  repeat' (first | with_reducible assumption | (intro _) | with_reducible apply foldl_kept' | simp only [Kept.upd_iff]
                 | split | dsimp only)

theorem State.telemetry_kept {s₀ : State} {s : State} {h} {body} (hk : Kept s₀ s) :
    Kept s₀ (State.telemetry s h body) := by
  unfold State.telemetry
  repeat' (first | with_reducible assumption | (intro _) | with_reducible apply State.command_kept
                 | with_reducible apply State.reply_kept | with_reducible apply State.corrected_kept
                 | with_reducible apply State.deny_kept | with_reducible apply foldl_kept' | simp only [Kept.upd_iff]
                 | split | dsimp only)

theorem State.portMode_kept {s₀ : State} {s : State} {h} {body} (hk : Kept s₀ s) :
    Kept s₀ (State.portMode s h body) := by
  unfold State.portMode
  repeat' (first | with_reducible assumption | (intro _) | with_reducible apply State.command_kept
                 | with_reducible apply State.deny_kept | with_reducible apply State.reply_kept
                 | with_reducible apply foldl_kept' | simp only [Kept.upd_iff] | split | dsimp only)

theorem State.amLoad_kept {s₀ : State} {s : State} {h} {body} (hk : Kept s₀ s) :
    Kept s₀ (State.amLoad s h body) := by
  unfold State.amLoad
  repeat' (first | with_reducible assumption | (intro _) | with_reducible apply State.command_kept
                 | with_reducible apply State.deny_kept | with_reducible apply State.reply_kept
                 | with_reducible apply State.updCtx_kept | with_reducible apply foldl_kept' | split | dsimp only)

theorem State.identity_kept {s₀ : State} {s : State} {h} {body} (hk : Kept s₀ s) :
    Kept s₀ (State.identity s h body) := by
  unfold State.identity
  repeat' (first | with_reducible assumption | (intro _) | with_reducible apply State.command_kept
                 | with_reducible apply State.reply_kept | with_reducible apply foldl_kept' | simp only [Kept.upd_iff]
                 | split | dsimp only)

theorem State.unknownCommand_kept {s₀ : State} {s : State} {cmd} {h} {body} (hk : Kept s₀ s) :
    Kept s₀ (State.unknownCommand s cmd h body) := by
  unfold State.unknownCommand
  repeat' (first | with_reducible assumption | (intro _) | with_reducible apply State.command_kept
                 | with_reducible apply foldl_kept' | split | dsimp only)

theorem State.deviceError_kept {s₀ : State} {s : State} {u} (hk : Kept s₀ s) :
    Kept s₀ (State.deviceError s u) := by
  unfold State.deviceError
  repeat' (first | with_reducible assumption | (intro _) | with_reducible apply State.post_kept
                 | with_reducible apply foldl_kept' | simp only [Kept.upd_iff] | split | dsimp only)

theorem State.cacheBlock_kept {s₀ : State} {s : State} {core} {addr} {data} (hk : Kept s₀ s) :
    Kept s₀ (State.cacheBlock s core addr data) := by
  unfold State.cacheBlock
  repeat' (first | with_reducible assumption | (intro _) | with_reducible apply foldl_kept' | simp only [Kept.upd_iff]
                 | split | dsimp only)

theorem State.writeRecord_kept {s₀ : State} {s : State} {c} {r} (hk : Kept s₀ s) :
    Kept s₀ (State.writeRecord s c r) := by
  unfold State.writeRecord
  repeat' (first | with_reducible assumption | (intro _) | with_reducible apply State.homeWrite_kept
                 | with_reducible apply foldl_kept' | simp only [Kept.upd_iff] | split | dsimp only)

theorem State.stopLower_kept {s₀ : State} {s : State} {c} {core} {r} (hk : Kept s₀ s) :
    Kept s₀ (State.stopLower s c core r) := by
  unfold State.stopLower
  repeat' (first | with_reducible assumption | (intro _) | with_reducible apply State.noteAct_kept
                 | with_reducible apply State.writeRecord_kept | with_reducible apply foldl_kept' | simp only [Kept.upd_iff]
                 | split | dsimp only)

theorem State.stopContext_kept {s₀ : State} {s : State} {num} {core} {r} (hk : Kept s₀ s) :
    Kept s₀ (State.stopContext s num core r) := by
  unfold State.stopContext
  repeat' (first | with_reducible assumption | (intro _) | with_reducible apply State.stopLower_kept
                 | with_reducible apply State.noteAct_kept | with_reducible apply State.notice_kept
                 | with_reducible apply State.writeRecord_kept | with_reducible apply State.deny_kept
                 | with_reducible apply State.updCtx_kept | with_reducible apply foldl_kept' | split | dsimp only)

theorem assertBody_kept {s₀ : State} {x} {s : State} (hk : Kept s₀ s) :
    Kept s₀ (assertBody x s).1 := by
  unfold assertBody
  repeat' (first | with_reducible assumption | (intro _) | with_reducible apply State.stopContext_kept
                 | with_reducible apply foldl_kept' | simp only [Kept.upd_iff] | split | dsimp only)

theorem State.settleFailures_kept {s₀ : State} {s : State} {k} {uid} {th} (hk : Kept s₀ s) :
    Kept s₀ (State.settleFailures s k uid th) := by
  unfold State.settleFailures
  repeat' (first | with_reducible assumption | (intro _) | with_reducible apply State.retryCourier_kept
                 | with_reducible apply State.skipCourier_kept | with_reducible apply State.skipMatrix_kept
                 | with_reducible apply State.retryRemote_kept | with_reducible apply State.skipRemote_kept
                 | with_reducible apply foldl_kept' | split | dsimp only)

theorem State.settleReport_kept {s₀ : State} {s : State} {k} {ctx} {r} (hk : Kept s₀ s) :
    Kept s₀ (State.settleReport s k ctx r) := by
  unfold State.settleReport
  repeat' (first | with_reducible assumption | (intro _) | with_reducible apply State.retryCourier_kept
                 | with_reducible apply State.skipCourier_kept | with_reducible apply State.restartMatrix_kept
                 | with_reducible apply State.skipMatrix_kept | with_reducible apply State.retryRemote_kept
                 | with_reducible apply State.skipRemote_kept | with_reducible apply State.updCtx_kept
                 | with_reducible apply State.takeNext_kept | with_reducible apply State.retryJoin_kept
                 | with_reducible apply foldl_kept' | simp only [Kept.upd_iff] | split | dsimp only)

theorem Issue.trapretOne_kept {s₀ : State} {x} {k} {s : State} {lt} (hk : Kept s₀ s) :
    Kept s₀ (Issue.trapretOne x k s lt) := by
  unfold Issue.trapretOne
  repeat' (first | with_reducible assumption | (intro _) | with_reducible apply State.updCtx_kept
                 | with_reducible apply State.settleReport_kept | with_reducible apply State.settleFailures_kept
                 | with_reducible apply State.updThread_kept | with_reducible apply foldl_kept' | simp only [Kept.upd_iff]
                 | split | dsimp only)

theorem trapretBody_kept {s₀ : State} {k} {x} {s : State} (hk : Kept s₀ s) :
    Kept s₀ (trapretBody k x s).1 := by
  unfold trapretBody
  repeat' (first | with_reducible assumption | (intro _) | with_reducible apply Issue.trapretOne_kept
                 | with_reducible apply foldl_kept' | simp only [Kept.upd_iff] | split | dsimp only)

theorem State.abandonWait_kept {s₀ : State} {s : State} {uid} {th} (hk : Kept s₀ s) :
    Kept s₀ (State.abandonWait s uid th) := by
  unfold State.abandonWait
  repeat' (first | with_reducible assumption | (intro _) | with_reducible apply State.updThread_kept
                 | with_reducible apply State.dropIteration_kept | with_reducible apply State.updTeam_kept
                 | with_reducible apply foldl_kept' | simp only [Kept.upd_iff] | split | dsimp only)

theorem State.detach_kept {s₀ : State} {s : State} {uid} {tid} (hk : Kept s₀ s) :
    Kept s₀ (State.detach s uid tid) := by
  unfold State.detach
  repeat' (first | with_reducible assumption | (intro _) | with_reducible apply State.leaveWave_kept
                 | with_reducible apply State.updThread_kept | with_reducible apply foldl_kept' | simp only [Kept.upd_iff]
                 | split | dsimp only)

theorem State.reportDelivery_kept {s₀ : State} {s : State} {num} (hk : Kept s₀ s) :
    Kept s₀ (State.reportDelivery s num) := by
  unfold State.reportDelivery
  repeat' (first | with_reducible assumption | (intro _) | with_reducible apply State.kill_kept
                 | with_reducible apply State.updTeam_kept | with_reducible apply State.detach_kept
                 | with_reducible apply State.abandonWait_kept | with_reducible apply State.updCtx_kept
                 | with_reducible apply State.addWave_kept | with_reducible apply State.updThread_kept
                 | with_reducible apply foldl_kept' | split | dsimp only)

theorem State.lostReports_kept {s₀ : State} {s : State} {cs} (hk : Kept s₀ s) :
    Kept s₀ (State.lostReports s cs) := by
  induction cs generalizing s with
  | nil => exact hk
  | cons a l ih =>
    unfold State.lostReports
    try dsimp only
    repeat' (first | with_reducible assumption | (intro _) | with_reducible apply ih | with_reducible apply State.kill_kept
                   | with_reducible apply foldl_kept' | simp only [Kept.upd_iff] | split | dsimp only)

theorem State.handlerOverrun_kept {s₀ : State} {s : State} {uid} {tid} (hk : Kept s₀ s) :
    Kept s₀ (State.handlerOverrun s uid tid) := by
  unfold State.handlerOverrun
  repeat' (first | with_reducible assumption | (intro _) | with_reducible apply State.kill_kept
                 | with_reducible apply foldl_kept' | simp only [Kept.upd_iff] | split | dsimp only)

theorem State.preemptReset_kept {s₀ : State} {s : State} {num} (hk : Kept s₀ s) :
    Kept s₀ (State.preemptReset s num) := by
  unfold State.preemptReset
  repeat' (first | with_reducible assumption | (intro _) | with_reducible apply State.kill_kept
                 | with_reducible apply foldl_kept' | split | dsimp only)

theorem State.preemptResets_kept {s₀ : State} {s : State} (hk : Kept s₀ s) :
    Kept s₀ (State.preemptResets s) := by
  unfold State.preemptResets
  repeat' (first | with_reducible assumption | (intro _) | with_reducible apply State.preemptReset_kept
                 | with_reducible apply foldl_kept' | simp only [Kept.upd_iff] | split | dsimp only)

theorem State.preemptComplete_kept {s₀ : State} {s : State} {num} (hk : Kept s₀ s) :
    Kept s₀ (State.preemptComplete s num) := by
  unfold State.preemptComplete
  repeat' (first | with_reducible assumption | (intro _) | with_reducible apply State.reply_kept
                 | with_reducible apply State.notice_kept | with_reducible apply State.updCtx_kept
                 | with_reducible apply foldl_kept' | simp only [Kept.upd_iff] | split | dsimp only)

theorem State.killUnit_kept {s₀ : State} {s : State} {uid} {unit} {offset} (hk : Kept s₀ s) :
    Kept s₀ (State.killUnit s uid unit offset) := by
  unfold State.killUnit
  repeat' (first | with_reducible assumption | (intro _) | with_reducible apply State.kill_kept
                 | with_reducible apply foldl_kept' | simp only [Kept.upd_iff] | split | dsimp only)

theorem State.reread_kept {s₀ : State} {s : State} {cluster} {line} (hk : Kept s₀ s) :
    Kept s₀ (State.reread s cluster line) := by
  unfold State.reread
  repeat' (first | with_reducible assumption | (intro _) | with_reducible apply foldl_kept' | simp only [Kept.upd_iff]
                 | split | dsimp only)

theorem State.dropClean_kept {s₀ : State} {s : State} {line} (hk : Kept s₀ s) :
    Kept s₀ (State.dropClean s line) := by
  unfold State.dropClean
  repeat' (first | with_reducible assumption | (intro _) | with_reducible apply foldl_kept' | simp only [Kept.upd_iff]
                 | split | dsimp only)

theorem State.uncorrectable_kept {s₀ : State} {s : State} {p} (hk : Kept s₀ s) :
    Kept s₀ (State.uncorrectable s p) := by
  unfold State.uncorrectable
  repeat' (first | with_reducible assumption | (intro _) | with_reducible apply State.killUnit_kept
                 | with_reducible apply State.reread_kept | with_reducible apply State.dropClean_kept
                 | with_reducible apply State.kill_kept | with_reducible apply State.deviceError_kept
                 | with_reducible apply foldl_kept' | simp only [Kept.upd_iff] | split | dsimp only)

theorem State.containmentComplete_kept {s₀ : State} {s : State} {num} (hk : Kept s₀ s) :
    Kept s₀ (State.containmentComplete s num) := by
  unfold State.containmentComplete
  repeat' (first | with_reducible assumption | (intro _) | with_reducible apply State.depart_kept
                 | with_reducible apply State.notice_kept | with_reducible apply State.writeRecord_kept
                 | with_reducible apply State.reply_kept | with_reducible apply foldl_kept' | simp only [Kept.upd_iff]
                 | split | dsimp only)

theorem State.writeback_kept {s₀ : State} {s : State} {uid} {tid} {n} (hk : Kept s₀ s) :
    Kept s₀ (State.writeback s uid tid n) := by
  unfold State.writeback
  repeat' (first | with_reducible assumption | (intro _) | with_reducible apply State.updTeam_kept
                 | with_reducible apply foldl_kept' | simp only [Kept.upd_iff] | split | dsimp only)

theorem State.allocate_kept {s₀ : State} {s : State} {m} {sector} {data} {ov} (hk : Kept s₀ s) :
    Kept s₀ (State.allocate s m sector data ov) := by
  unfold State.allocate
  repeat' (first | with_reducible assumption | (intro _) | with_reducible apply State.l1Way_kept
                 | with_reducible apply foldl_kept' | simp only [Kept.upd_iff] | split | dsimp only)

theorem State.fillArrival_kept {s₀ : State} {s : State} {id} (hk : Kept s₀ s) :
    Kept s₀ (State.fillArrival s id) := by
  unfold State.fillArrival
  repeat' (first | with_reducible assumption | (intro _) | with_reducible apply State.dropMsg_kept
                 | with_reducible apply State.bind_kept | with_reducible apply State.allocate_kept
                 | with_reducible apply foldl_kept' | split | dsimp only)

theorem State.arriveIf_kept {s₀ : State} {s : State} {id} {kind} (hk : Kept s₀ s) :
    Kept s₀ (State.arriveIf s id kind) := by
  unfold State.arriveIf
  repeat' (first | with_reducible assumption | (intro _) | with_reducible apply State.arrive_kept
                 | with_reducible apply foldl_kept' | simp only [Kept.upd_iff] | split | dsimp only)

theorem State.dramReturn_kept {s₀ : State} {s : State} {id} (hk : Kept s₀ s) :
    Kept s₀ (State.dramReturn s id) := by
  unfold State.dramReturn
  repeat' (first | with_reducible assumption | (intro _) | with_reducible apply State.performRead_kept
                 | with_reducible apply State.useL2_kept | with_reducible apply foldl_kept' | simp only [Kept.upd_iff]
                 | split | dsimp only)

theorem State.storeAck_kept {s₀ : State} {s : State} {id} (hk : Kept s₀ s) :
    Kept s₀ (State.storeAck s id) := by
  unfold State.storeAck
  repeat' (first | with_reducible assumption | (intro _) | with_reducible apply State.dropMsg_kept
                 | with_reducible apply State.refusePart_kept | with_reducible apply State.noteRefusal_kept
                 | with_reducible apply State.bind_kept | with_reducible apply foldl_kept' | split | dsimp only)

theorem State.recallArrival_kept {s₀ : State} {s : State} {id} (hk : Kept s₀ s) :
    Kept s₀ (State.recallArrival s id) := by
  unfold State.recallArrival
  repeat' (first | with_reducible assumption | (intro _) | with_reducible apply State.giveUp_kept
                 | with_reducible apply State.dropMsg_kept | with_reducible apply foldl_kept' | simp only [Kept.upd_iff]
                 | split | dsimp only)

theorem State.releaseArrival_kept {s₀ : State} {s : State} {id} (hk : Kept s₀ s) :
    Kept s₀ (State.releaseArrival s id) := by
  unfold State.releaseArrival
  repeat' (first | with_reducible assumption | (intro _) | with_reducible apply State.released_kept
                 | with_reducible apply foldl_kept' | simp only [Kept.upd_iff] | split | dsimp only)

theorem State.grantArrival_kept {s₀ : State} {s : State} {id} (hk : Kept s₀ s) :
    Kept s₀ (State.grantArrival s id) := by
  unfold State.grantArrival
  repeat' (first | with_reducible assumption | (intro _) | with_reducible apply State.takeGrant_kept
                 | with_reducible apply foldl_kept' | simp only [Kept.upd_iff] | split | dsimp only)

theorem State.walkComplete_kept {s₀ : State} {s : State} {die} {ctx} {page} (hk : Kept s₀ s) :
    Kept s₀ (State.walkComplete s die ctx page) := by
  unfold State.walkComplete
  repeat' (first | with_reducible assumption | (intro _) | with_reducible apply State.fill_kept
                 | with_reducible apply foldl_kept' | simp only [Kept.upd_iff] | split | dsimp only)

theorem State.dropTlb_kept {s₀ : State} {s : State} {u} {ctx} {page} (hk : Kept s₀ s) :
    Kept s₀ (State.dropTlb s u ctx page) := by
  unfold State.dropTlb
  repeat' (first | with_reducible assumption | (intro _) | with_reducible apply foldl_kept' | simp only [Kept.upd_iff]
                 | split | dsimp only)

theorem State.dropWalk_kept {s₀ : State} {s : State} {die} {ctx} {middle} {index} (hk : Kept s₀ s) :
    Kept s₀ (State.dropWalk s die ctx middle index) := by
  unfold State.dropWalk
  repeat' (first | with_reducible assumption | (intro _) | with_reducible apply foldl_kept' | simp only [Kept.upd_iff]
                 | split | dsimp only)

theorem State.dropIBlock_kept {s₀ : State} {s : State} {core} {addr} (hk : Kept s₀ s) :
    Kept s₀ (State.dropIBlock s core addr) := by
  unfold State.dropIBlock
  repeat' (first | with_reducible assumption | (intro _) | with_reducible apply foldl_kept' | simp only [Kept.upd_iff]
                 | split | dsimp only)

theorem State.mereageRelease_kept {s₀ : State} {s : State} {core} {uid} {pc} (hk : Kept s₀ s) :
    Kept s₀ (State.mereageRelease s core uid pc) := by
  unfold State.mereageRelease
  repeat' (first | with_reducible assumption | (intro _) | with_reducible apply State.releaseMere_kept
                 | with_reducible apply foldl_kept' | simp only [Kept.upd_iff] | split | dsimp only)

theorem State.pauseExpire_kept {s₀ : State} {s : State} {uid} {tid} (hk : Kept s₀ s) :
    Kept s₀ (State.pauseExpire s uid tid) := by
  unfold State.pauseExpire
  repeat' (first | with_reducible assumption | (intro _) | with_reducible apply State.wake_kept
                 | with_reducible apply foldl_kept' | split | dsimp only)

theorem State.settleWait_kept {s₀ : State} {s : State} {t} {th} {b} (hk : Kept s₀ s) :
    Kept s₀ (State.settleWait s t th b) := by
  unfold State.settleWait
  repeat' (first | with_reducible assumption | (intro _) | with_reducible apply State.wake_kept
                 | with_reducible apply State.updThread_kept | with_reducible apply State.settleStloop_kept
                 | with_reducible apply State.settleStget_kept | with_reducible apply State.settleKv_kept
                 | with_reducible apply State.settleSeal_kept | with_reducible apply State.settleSlot_kept
                 | with_reducible apply State.settleMatrixWait_kept | with_reducible apply State.settleJoin_kept
                 | with_reducible apply State.settlePost_kept | with_reducible apply foldl_kept' | simp only [Kept.upd_iff]
                 | split | dsimp only)

theorem State.closeWait_kept {s₀ : State} {s : State} {t} {th} {b} (hk : Kept s₀ s) :
    Kept s₀ (State.closeWait s t th b) := by
  unfold State.closeWait
  repeat' (first | with_reducible assumption | (intro _) | with_reducible apply State.settleEvent_kept
                 | with_reducible apply State.settleWaitb_kept | with_reducible apply State.settleMwait_kept
                 | with_reducible apply foldl_kept' | simp only [Kept.upd_iff] | split | dsimp only)

theorem State.settleThreads_kept {s₀ : State} {test : State →
  Team → Thread → Blocked → State} {s : State} {uid} {tids} (hf : ∀ y0 y1 y2 y3, Kept s₀ y0 → Kept s₀ (test y0 y1 y2 y3))
      (hk : Kept s₀ s) :
    Kept s₀ (State.settleThreads test s uid tids) := by
  induction tids generalizing s uid with
  | nil => exact hk
  | cons a l ih =>
    unfold State.settleThreads
    try dsimp only
    repeat' (first | with_reducible assumption | (intro _) | with_reducible apply ih | with_reducible apply hf
                   | with_reducible apply foldl_kept' | simp only [Kept.upd_iff] | split | dsimp only)

theorem State.onTeam_kept {s₀ : State} {s : State} {uid} {f : State → Team → State} (hk : Kept s₀ s) (hf : ∀ y0 y1, Kept s₀
    y0 → Kept s₀ (f y0 y1)) :
    Kept s₀ (State.onTeam s uid f) := by
  unfold State.onTeam
  repeat' (first | with_reducible assumption | (intro _) | with_reducible apply hf | with_reducible apply foldl_kept'
                 | simp only [Kept.upd_iff] | split | dsimp only)

theorem State.settleFences_kept {s₀ : State} {s : State} {uid} {fs} (hk : Kept s₀ s) :
    Kept s₀ (State.settleFences s uid fs) := by
  induction fs generalizing s uid with
  | nil => exact hk
  | cons a l ih =>
    unfold State.settleFences
    try dsimp only
    repeat' (first | with_reducible assumption | (intro _) | with_reducible apply ih
                   | with_reducible apply State.onTeam_kept | with_reducible apply State.retireFence_kept
                   | with_reducible apply foldl_kept' | simp only [Kept.upd_iff] | split | dsimp only)

theorem State.settleTeam_kept {s₀ : State} {s : State} {uid} (hk : Kept s₀ s) :
    Kept s₀ (State.settleTeam s uid) := by
  unfold State.settleTeam
  repeat' (first | with_reducible assumption | (intro _) | with_reducible apply State.onTeam_kept
                 | with_reducible apply State.settleThreads_kept | with_reducible apply State.settleWait_kept
                 | with_reducible apply State.settleFences_kept | with_reducible apply State.settleHolder_kept
                 | with_reducible apply State.settleReconv_kept | with_reducible apply State.settleBarriers_kept
                 | with_reducible apply State.settlePenter_kept | with_reducible apply State.settleLeave_kept
                 | with_reducible apply foldl_kept' | split | dsimp only)

theorem State.settleDeferred_kept {s₀ : State} {s : State} {ds} (hk : Kept s₀ s) :
    Kept s₀ (State.settleDeferred s ds) := by
  induction ds generalizing s with
  | nil => exact hk
  | cons a l ih =>
    unfold State.settleDeferred
    try dsimp only
    repeat' (first | with_reducible assumption | (intro _) | with_reducible apply ih
                   | with_reducible apply State.performDeferred_kept | with_reducible apply foldl_kept'
                   | simp only [Kept.upd_iff] | split | dsimp only)

theorem State.rejoin_kept {s₀ : State} {s : State} {w} {p} (hk : Kept s₀ s) :
    Kept s₀ (State.rejoin s w p) := by
  unfold State.rejoin
  repeat' (first | with_reducible assumption | (intro _) | with_reducible apply State.takePlace_kept
                 | with_reducible apply State.updWave_kept | with_reducible apply State.file_kept
                 | with_reducible apply foldl_kept' | simp only [Kept.upd_iff] | split | dsimp only)

theorem State.unpark_kept {s₀ : State} {s : State} {w} {p} (hk : Kept s₀ s) :
    Kept s₀ (State.unpark s w p) := by
  unfold State.unpark
  repeat' (first | with_reducible assumption | (intro _) | with_reducible apply State.trapWave_kept
                 | with_reducible apply State.onTeam_kept | with_reducible apply State.updTeam_kept
                 | with_reducible apply State.acquire_kept | with_reducible apply State.rejoin_kept
                 | with_reducible apply State.tick_kept | with_reducible apply State.updWave_kept
                 | with_reducible apply foldl_kept' | split | dsimp only)

theorem State.settleParks_kept {s₀ : State} {s : State} {wids} (hk : Kept s₀ s) :
    Kept s₀ (State.settleParks s wids) := by
  induction wids generalizing s with
  | nil => exact hk
  | cons a l ih =>
    unfold State.settleParks
    try dsimp only
    repeat' (first | with_reducible assumption | (intro _) | with_reducible apply ih
                   | with_reducible apply State.inTime_kept | with_reducible apply State.unpark_kept
                   | with_reducible apply foldl_kept' | simp only [Kept.upd_iff] | split | dsimp only)

theorem State.closeTeam_kept {s₀ : State} {s : State} {t} (hk : Kept s₀ s) :
    Kept s₀ (State.closeTeam s t) := by
  unfold State.closeTeam
  repeat' (first | with_reducible assumption | (intro _) | with_reducible apply State.updTeam_kept
                 | with_reducible apply State.withdraw_kept | with_reducible apply foldl_kept' | simp only [Kept.upd_iff]
                 | split | dsimp only)

theorem State.endTeam_kept {s₀ : State} {s : State} {t} (hk : Kept s₀ s) :
    Kept s₀ (State.endTeam s t) := by
  unfold State.endTeam
  repeat' (first | with_reducible assumption | (intro _) | with_reducible apply State.updGrid_kept
                 | with_reducible apply foldl_kept' | simp only [Kept.upd_iff] | split | dsimp only)

theorem State.endTeams_kept {s₀ : State} {s : State} {ts} (hk : Kept s₀ s) :
    Kept s₀ (State.endTeams s ts) := by
  induction ts generalizing s with
  | nil => exact hk
  | cons a l ih =>
    unfold State.endTeams
    try dsimp only
    repeat' (first | with_reducible assumption | (intro _) | with_reducible apply ih
                   | with_reducible apply State.inTime_kept | with_reducible apply State.onTeam_kept
                   | with_reducible apply State.closeTeam_kept | with_reducible apply State.endTeam_kept
                   | with_reducible apply foldl_kept' | simp only [Kept.upd_iff] | split | dsimp only)

theorem State.settleHeld_kept {s₀ : State} {s : State} (hk : Kept s₀ s) :
    Kept s₀ (State.settleHeld s) := by
  unfold State.settleHeld
  repeat' (first | with_reducible assumption | (intro _) | with_reducible apply State.inTime_kept
                 | with_reducible apply State.settleHeldCourier_kept | with_reducible apply State.settleHeldMatrix_kept
                 | with_reducible apply foldl_kept' | simp only [Kept.upd_iff] | split | dsimp only)

theorem State.settleReports_kept {s₀ : State} {s : State} (hk : Kept s₀ s) :
    Kept s₀ (State.settleReports s) := by
  unfold State.settleReports
  repeat' (first | with_reducible assumption | (intro _) | with_reducible apply State.reportCouriers_kept
                 | with_reducible apply State.reportMatrix_kept | with_reducible apply State.reportRemotes_kept
                 | with_reducible apply State.lostReports_kept | with_reducible apply State.settleJoins_kept
                 | with_reducible apply foldl_kept' | simp only [Kept.upd_iff] | split | dsimp only)

theorem State.settleCommands_kept {s₀ : State} {s : State} (hk : Kept s₀ s) :
    Kept s₀ (State.settleCommands s) := by
  unfold State.settleCommands
  repeat' (first | with_reducible assumption | (intro _) | with_reducible apply State.preemptComplete_kept
                 | with_reducible apply State.settleUnloads_kept | with_reducible apply State.postUnsent_kept
                 | with_reducible apply foldl_kept' | simp only [Kept.upd_iff] | split | dsimp only)

theorem State.settleFetches_kept {s₀ : State} {s : State} (hk : Kept s₀ s) :
    Kept s₀ (State.settleFetches s) := by
  unfold State.settleFetches
  repeat' (first | with_reducible assumption | (intro _) | with_reducible apply State.demandRead_kept
                 | with_reducible apply foldl_kept' | simp only [Kept.upd_iff] | split | dsimp only)

theorem State.settle_kept {s₀ : State} {s : State} (hk : Kept s₀ s) :
    Kept s₀ (State.settle s) := by
  unfold State.settle
  repeat' (first | with_reducible assumption | (intro _) | with_reducible apply State.settleFetches_kept
                 | with_reducible apply State.settleDeferred_kept | with_reducible apply State.settleParks_kept
                 | with_reducible apply State.inTime_kept | with_reducible apply State.settleTeam_kept
                 | with_reducible apply State.settleHeld_kept | with_reducible apply State.sendRemotes_kept
                 | with_reducible apply State.settleReports_kept | with_reducible apply State.enterTeam_kept
                 | with_reducible apply State.earlyTriggers_kept | with_reducible apply State.endTeams_kept
                 | with_reducible apply State.settleCommands_kept | with_reducible apply foldl_kept'
                 | simp only [Kept.upd_iff] | split | dsimp only)

theorem State.closeTeamCycle_kept {s₀ : State} {s : State} {uid} (hk : Kept s₀ s) :
    Kept s₀ (State.closeTeamCycle s uid) := by
  unfold State.closeTeamCycle
  repeat' (first | with_reducible assumption | (intro _) | with_reducible apply State.onTeam_kept
                 | with_reducible apply State.settleThreads_kept | with_reducible apply State.closeWait_kept
                 | with_reducible apply State.settleGrow_kept | with_reducible apply foldl_kept' | split | dsimp only)

theorem State.closeCycle_kept {s₀ : State} {s : State} {dies} (hk : Kept s₀ s) :
    Kept s₀ (State.closeCycle s dies) := by
  unfold State.closeCycle
  repeat' (first | with_reducible assumption | (intro _) | with_reducible apply State.gather_kept
                 | with_reducible apply State.closeTeamCycle_kept | with_reducible apply State.runMeres_kept
                 | with_reducible apply State.settlePac_kept | with_reducible apply State.expireDue_kept
                 | with_reducible apply foldl_kept' | simp only [Kept.upd_iff] | split | dsimp only)

theorem State.noteAll_kept {s₀ : State} {s : State} {ks} (hk : Kept s₀ s) :
    Kept s₀ (State.noteAll s ks) := by
  unfold State.noteAll
  repeat' (first | with_reducible assumption | (intro _) | with_reducible apply foldl_kept' | simp only [Kept.upd_iff]
                 | split | dsimp only)

theorem State.standAt_kept {s₀ : State} {s : State} {w} {pc} (hk : Kept s₀ s) :
    Kept s₀ (State.standAt s w pc) := by
  unfold State.standAt
  repeat' (first | with_reducible assumption | (intro _) | with_reducible apply State.updThreads_kept
                 | with_reducible apply foldl_kept' | simp only [Kept.upd_iff] | split | dsimp only)

end Sys2Proof.Machine
end

