-- ==== Sys2Proof/Laws/Exec.lean ====
section
/-! SUPPORT. Every meaning of an instruction of the ISA, and of every other agent's step but the host's settings, the links,
bring-up and power, keeps what `Kept` names; those others keep memory in its canonical form. -/

set_option Elab.async false

namespace Sys2Proof.Machine

theorem Issue.goOn_kept {s₀ : State} {x : Issue} {r : State × Out} (hk : Kept s₀ r.1) : Kept s₀ (x.goOn r) := by
  unfold Issue.goOn
  split
  · exact Issue.advance_kept hk
  · exact Issue.advance_kept hk
  · exact State.trapWave_kept hk
  · exact State.updWave_kept hk
  · exact hk

theorem Issue.finish_kept {s₀ : State} {x : Issue} {r : State × Out} (hx : Kept s₀ x.s) (hk : Kept s₀ r.1) :
    Kept s₀ (x.finish r) := by
  unfold Issue.finish
  split
  · exact State.tick_kept (State.updWave_kept hx)
  · exact Issue.goOn_kept hk

theorem State.issue?_s {s : State} {op f x} (h : s.issue? op f = some x) : x.s = s := by
  unfold State.issue? at h
  simp only [Option.bind_eq_some_iff] at h
  obtain ⟨_, _, _, _, _, _, _, _, h⟩ := h
  split at h
  · contradiction
  · exact (Option.some.inj h) ▸ rfl

theorem runWave_kept {op f s t} {body : Issue → State → State × Out} (hb : ∀ x, Kept s (body x s).1)
    (h : runWave op f body s = .next t) : Kept s t := by
  unfold runWave at h
  split at h
  · contradiction
  · next x hx =>
    have hs : Kept s x.s := State.issue?_s hx ▸ Kept.refl s
    split at h
    · cases h; exact Issue.finish_kept hs (Kept.refl s)
    · cases h; exact Issue.finish_kept hs (hb _)

theorem execIadd_kept {f : Fields} {s t : State} (h : execIadd f s = .next t) : Kept s t := by
  refine runWave_kept (fun x => ?_) h
  repeat' (first | with_reducible assumption | exact Kept.refl _ | (intro _) | with_reducible apply intOp_kept
                 | with_reducible apply foldl_kept' | simp only [Kept.upd_iff] | split | dsimp only)

theorem execIsub_kept {f : Fields} {s t : State} (h : execIsub f s = .next t) : Kept s t := by
  refine runWave_kept (fun x => ?_) h
  repeat' (first | with_reducible assumption | exact Kept.refl _ | (intro _) | with_reducible apply intOp_kept
                 | with_reducible apply foldl_kept' | simp only [Kept.upd_iff] | split | dsimp only)

theorem execImul_kept {f : Fields} {s t : State} (h : execImul f s = .next t) : Kept s t := by
  refine runWave_kept (fun x => ?_) h
  repeat' (first | with_reducible assumption | exact Kept.refl _ | (intro _) | with_reducible apply intOp_kept
                 | with_reducible apply foldl_kept' | simp only [Kept.upd_iff] | split | dsimp only)

theorem execImad_kept {f : Fields} {s t : State} (h : execImad f s = .next t) : Kept s t := by
  refine runWave_kept (fun x => ?_) h
  repeat' (first | with_reducible assumption | exact Kept.refl _ | (intro _) | with_reducible apply intOp_kept
                 | with_reducible apply foldl_kept' | simp only [Kept.upd_iff] | split | dsimp only)

theorem execImulh_kept {f : Fields} {s t : State} (h : execImulh f s = .next t) : Kept s t := by
  refine runWave_kept (fun x => ?_) h
  repeat' (first | with_reducible assumption | exact Kept.refl _ | (intro _) | with_reducible apply intOp_kept
                 | with_reducible apply foldl_kept' | simp only [Kept.upd_iff] | split | dsimp only)

theorem execImin_kept {f : Fields} {s t : State} (h : execImin f s = .next t) : Kept s t := by
  refine runWave_kept (fun x => ?_) h
  repeat' (first | with_reducible assumption | exact Kept.refl _ | (intro _) | with_reducible apply intOp_kept
                 | with_reducible apply foldl_kept' | simp only [Kept.upd_iff] | split | dsimp only)

theorem execImax_kept {f : Fields} {s t : State} (h : execImax f s = .next t) : Kept s t := by
  refine runWave_kept (fun x => ?_) h
  repeat' (first | with_reducible assumption | exact Kept.refl _ | (intro _) | with_reducible apply intOp_kept
                 | with_reducible apply foldl_kept' | simp only [Kept.upd_iff] | split | dsimp only)

theorem execIabs_kept {f : Fields} {s t : State} (h : execIabs f s = .next t) : Kept s t := by
  refine runWave_kept (fun x => ?_) h
  repeat' (first | with_reducible assumption | exact Kept.refl _ | (intro _) | with_reducible apply intOp_kept
                 | with_reducible apply foldl_kept' | simp only [Kept.upd_iff] | split | dsimp only)

theorem execIneg_kept {f : Fields} {s t : State} (h : execIneg f s = .next t) : Kept s t := by
  refine runWave_kept (fun x => ?_) h
  repeat' (first | with_reducible assumption | exact Kept.refl _ | (intro _) | with_reducible apply intOp_kept
                 | with_reducible apply foldl_kept' | simp only [Kept.upd_iff] | split | dsimp only)

theorem execIsad_kept {f : Fields} {s t : State} (h : execIsad f s = .next t) : Kept s t := by
  refine runWave_kept (fun x => ?_) h
  repeat' (first | with_reducible assumption | exact Kept.refl _ | (intro _) | with_reducible apply intOp_kept
                 | with_reducible apply foldl_kept' | simp only [Kept.upd_iff] | split | dsimp only)

theorem execIadd3_kept {f : Fields} {s t : State} (h : execIadd3 f s = .next t) : Kept s t := by
  refine runWave_kept (fun x => ?_) h
  repeat' (first | with_reducible assumption | exact Kept.refl _ | (intro _) | with_reducible apply intOp_kept
                 | with_reducible apply foldl_kept' | simp only [Kept.upd_iff] | split | dsimp only)

theorem execLea_kept {f : Fields} {s t : State} (h : execLea f s = .next t) : Kept s t := by
  refine runWave_kept (fun x => ?_) h
  repeat' (first | with_reducible assumption | exact Kept.refl _ | (intro _) | with_reducible apply computes_kept
                 | with_reducible apply foldl_kept' | simp only [Kept.upd_iff] | split | dsimp only)

theorem execIcmp_kept {f : Fields} {s t : State} (h : execIcmp f s = .next t) : Kept s t := by
  refine runWave_kept (fun x => ?_) h
  repeat' (first | with_reducible assumption | exact Kept.refl _ | (intro _) | with_reducible apply computesPred_kept
                 | with_reducible apply foldl_kept' | simp only [Kept.upd_iff] | split | dsimp only)

theorem execIsel_kept {f : Fields} {s t : State} (h : execIsel f s = .next t) : Kept s t := by
  refine runWave_kept (fun x => ?_) h
  repeat' (first | with_reducible assumption | exact Kept.refl _ | (intro _) | with_reducible apply iselBody_kept
                 | with_reducible apply foldl_kept' | simp only [Kept.upd_iff] | split | dsimp only)

theorem execMov_kept {f : Fields} {s t : State} (h : execMov f s = .next t) : Kept s t := by
  refine runWave_kept (fun x => ?_) h
  repeat' (first | with_reducible assumption | exact Kept.refl _ | (intro _) | with_reducible apply bitOp_kept
                 | with_reducible apply foldl_kept' | simp only [Kept.upd_iff] | split | dsimp only)

theorem execMovl_kept {f : Fields} {s t : State} (h : execMovl f s = .next t) : Kept s t := by
  refine runWave_kept (fun x => ?_) h
  repeat' (first | with_reducible assumption | exact Kept.refl _ | (intro _) | with_reducible apply bitOp_kept
                 | with_reducible apply foldl_kept' | simp only [Kept.upd_iff] | split | dsimp only)

theorem execAnd_kept {f : Fields} {s t : State} (h : execAnd f s = .next t) : Kept s t := by
  refine runWave_kept (fun x => ?_) h
  repeat' (first | with_reducible assumption | exact Kept.refl _ | (intro _) | with_reducible apply bitOp_kept
                 | with_reducible apply foldl_kept' | simp only [Kept.upd_iff] | split | dsimp only)

theorem execOr_kept {f : Fields} {s t : State} (h : execOr f s = .next t) : Kept s t := by
  refine runWave_kept (fun x => ?_) h
  repeat' (first | with_reducible assumption | exact Kept.refl _ | (intro _) | with_reducible apply bitOp_kept
                 | with_reducible apply foldl_kept' | simp only [Kept.upd_iff] | split | dsimp only)

theorem execXor_kept {f : Fields} {s t : State} (h : execXor f s = .next t) : Kept s t := by
  refine runWave_kept (fun x => ?_) h
  repeat' (first | with_reducible assumption | exact Kept.refl _ | (intro _) | with_reducible apply bitOp_kept
                 | with_reducible apply foldl_kept' | simp only [Kept.upd_iff] | split | dsimp only)

theorem execNot_kept {f : Fields} {s t : State} (h : execNot f s = .next t) : Kept s t := by
  refine runWave_kept (fun x => ?_) h
  repeat' (first | with_reducible assumption | exact Kept.refl _ | (intro _) | with_reducible apply bitOp_kept
                 | with_reducible apply foldl_kept' | simp only [Kept.upd_iff] | split | dsimp only)

theorem execAndn_kept {f : Fields} {s t : State} (h : execAndn f s = .next t) : Kept s t := by
  refine runWave_kept (fun x => ?_) h
  repeat' (first | with_reducible assumption | exact Kept.refl _ | (intro _) | with_reducible apply bitOp_kept
                 | with_reducible apply foldl_kept' | simp only [Kept.upd_iff] | split | dsimp only)

theorem execLop3_kept {f : Fields} {s t : State} (h : execLop3 f s = .next t) : Kept s t := by
  refine runWave_kept (fun x => ?_) h
  repeat' (first | with_reducible assumption | exact Kept.refl _ | (intro _) | with_reducible apply bitOp_kept
                 | with_reducible apply foldl_kept' | simp only [Kept.upd_iff] | split | dsimp only)

theorem execShl_kept {f : Fields} {s t : State} (h : execShl f s = .next t) : Kept s t := by
  refine runWave_kept (fun x => ?_) h
  repeat' (first | with_reducible assumption | exact Kept.refl _ | (intro _) | with_reducible apply bitOp_kept
                 | with_reducible apply foldl_kept' | simp only [Kept.upd_iff] | split | dsimp only)

theorem execShr_kept {f : Fields} {s t : State} (h : execShr f s = .next t) : Kept s t := by
  refine runWave_kept (fun x => ?_) h
  repeat' (first | with_reducible assumption | exact Kept.refl _ | (intro _) | with_reducible apply bitOp_kept
                 | with_reducible apply foldl_kept' | simp only [Kept.upd_iff] | split | dsimp only)

theorem execShra_kept {f : Fields} {s t : State} (h : execShra f s = .next t) : Kept s t := by
  refine runWave_kept (fun x => ?_) h
  repeat' (first | with_reducible assumption | exact Kept.refl _ | (intro _) | with_reducible apply bitOp_kept
                 | with_reducible apply foldl_kept' | simp only [Kept.upd_iff] | split | dsimp only)

theorem execRot_kept {f : Fields} {s t : State} (h : execRot f s = .next t) : Kept s t := by
  refine runWave_kept (fun x => ?_) h
  repeat' (first | with_reducible assumption | exact Kept.refl _ | (intro _) | with_reducible apply bitOp_kept
                 | with_reducible apply foldl_kept' | simp only [Kept.upd_iff] | split | dsimp only)

theorem execFunnel_kept {f : Fields} {s t : State} (h : execFunnel f s = .next t) : Kept s t := by
  refine runWave_kept (fun x => ?_) h
  repeat' (first | with_reducible assumption | exact Kept.refl _ | (intro _) | with_reducible apply bitOp_kept
                 | with_reducible apply foldl_kept' | simp only [Kept.upd_iff] | split | dsimp only)

theorem execBfe_kept {f : Fields} {s t : State} (h : execBfe f s = .next t) : Kept s t := by
  refine runWave_kept (fun x => ?_) h
  repeat' (first | with_reducible assumption | exact Kept.refl _ | (intro _) | with_reducible apply bitOp_kept
                 | with_reducible apply foldl_kept' | simp only [Kept.upd_iff] | split | dsimp only)

theorem execBfi_kept {f : Fields} {s t : State} (h : execBfi f s = .next t) : Kept s t := by
  refine runWave_kept (fun x => ?_) h
  repeat' (first | with_reducible assumption | exact Kept.refl _ | (intro _) | with_reducible apply bitOp_kept
                 | with_reducible apply foldl_kept' | simp only [Kept.upd_iff] | split | dsimp only)

theorem execPopc_kept {f : Fields} {s t : State} (h : execPopc f s = .next t) : Kept s t := by
  refine runWave_kept (fun x => ?_) h
  repeat' (first | with_reducible assumption | exact Kept.refl _ | (intro _) | with_reducible apply bitOp_kept
                 | with_reducible apply foldl_kept' | simp only [Kept.upd_iff] | split | dsimp only)

theorem execClz_kept {f : Fields} {s t : State} (h : execClz f s = .next t) : Kept s t := by
  refine runWave_kept (fun x => ?_) h
  repeat' (first | with_reducible assumption | exact Kept.refl _ | (intro _) | with_reducible apply bitOp_kept
                 | with_reducible apply foldl_kept' | simp only [Kept.upd_iff] | split | dsimp only)

theorem execBrev_kept {f : Fields} {s t : State} (h : execBrev f s = .next t) : Kept s t := by
  refine runWave_kept (fun x => ?_) h
  repeat' (first | with_reducible assumption | exact Kept.refl _ | (intro _) | with_reducible apply bitOp_kept
                 | with_reducible apply foldl_kept' | simp only [Kept.upd_iff] | split | dsimp only)

theorem execPlop_kept {f : Fields} {s t : State} (h : execPlop f s = .next t) : Kept s t := by
  refine runWave_kept (fun x => ?_) h
  repeat' (first | with_reducible assumption | exact Kept.refl _ | (intro _) | with_reducible apply computesPred_kept
                 | with_reducible apply foldl_kept' | simp only [Kept.upd_iff] | split | dsimp only)

theorem execPmov_kept {f : Fields} {s t : State} (h : execPmov f s = .next t) : Kept s t := by
  refine runWave_kept (fun x => ?_) h
  repeat' (first | with_reducible assumption | exact Kept.refl _ | (intro _) | with_reducible apply computesPred_kept
                 | with_reducible apply foldl_kept' | simp only [Kept.upd_iff] | split | dsimp only)

theorem execCvti_kept {f : Fields} {s t : State} (h : execCvti f s = .next t) : Kept s t := by
  refine runWave_kept (fun x => ?_) h
  repeat' (first | with_reducible assumption | exact Kept.refl _ | (intro _) | with_reducible apply intOp_kept
                 | with_reducible apply foldl_kept' | simp only [Kept.upd_iff] | split | dsimp only)

theorem execIdot4_kept {f : Fields} {s t : State} (h : execIdot4 f s = .next t) : Kept s t := by
  refine runWave_kept (fun x => ?_) h
  repeat' (first | with_reducible assumption | exact Kept.refl _ | (intro _) | with_reducible apply intOp_kept
                 | with_reducible apply foldl_kept' | simp only [Kept.upd_iff] | split | dsimp only)

theorem execPrmt_kept {f : Fields} {s t : State} (h : execPrmt f s = .next t) : Kept s t := by
  refine runWave_kept (fun x => ?_) h
  repeat' (first | with_reducible assumption | exact Kept.refl _ | (intro _) | with_reducible apply computes_kept
                 | with_reducible apply foldl_kept' | simp only [Kept.upd_iff] | split | dsimp only)

theorem execShfl_kept {f : Fields} {s t : State} (h : execShfl f s = .next t) : Kept s t := by
  refine runWave_kept (fun x => ?_) h
  repeat' (first | with_reducible assumption | exact Kept.refl _ | (intro _) | with_reducible apply bitOp_kept
                 | with_reducible apply foldl_kept' | simp only [Kept.upd_iff] | split | dsimp only)

theorem execVote_kept {f : Fields} {s t : State} (h : execVote f s = .next t) : Kept s t := by
  refine runWave_kept (fun x => ?_) h
  repeat' (first | with_reducible assumption | exact Kept.refl _ | (intro _) | with_reducible apply computesPred_kept
                 | with_reducible apply foldl_kept' | simp only [Kept.upd_iff] | split | dsimp only)

theorem execBallot_kept {f : Fields} {s t : State} (h : execBallot f s = .next t) : Kept s t := by
  refine runWave_kept (fun x => ?_) h
  repeat' (first | with_reducible assumption | exact Kept.refl _ | (intro _) | with_reducible apply computes_kept
                 | with_reducible apply foldl_kept' | simp only [Kept.upd_iff] | split | dsimp only)

theorem execWreduce_kept {f : Fields} {s t : State} (h : execWreduce f s = .next t) : Kept s t := by
  refine runWave_kept (fun x => ?_) h
  repeat' (first | with_reducible assumption | exact Kept.refl _ | (intro _) | with_reducible apply bitOp_kept
                 | with_reducible apply foldl_kept' | simp only [Kept.upd_iff] | split | dsimp only)

theorem execWscan_kept {f : Fields} {s t : State} (h : execWscan f s = .next t) : Kept s t := by
  refine runWave_kept (fun x => ?_) h
  repeat' (first | with_reducible assumption | exact Kept.refl _ | (intro _) | with_reducible apply bitOp_kept
                 | with_reducible apply foldl_kept' | simp only [Kept.upd_iff] | split | dsimp only)

theorem execMatch_kept {f : Fields} {s t : State} (h : execMatch f s = .next t) : Kept s t := by
  refine runWave_kept (fun x => ?_) h
  repeat' (first | with_reducible assumption | exact Kept.refl _ | (intro _) | with_reducible apply computes_kept
                 | with_reducible apply foldl_kept' | simp only [Kept.upd_iff] | split | dsimp only)

theorem execElect_kept {f : Fields} {s t : State} (h : execElect f s = .next t) : Kept s t := by
  refine runWave_kept (fun x => ?_) h
  repeat' (first | with_reducible assumption | exact Kept.refl _ | (intro _) | with_reducible apply computesPred_kept
                 | with_reducible apply foldl_kept' | simp only [Kept.upd_iff] | split | dsimp only)

theorem execFadd_kept {f : Fields} {s t : State} (h : execFadd f s = .next t) : Kept s t := by
  refine runWave_kept (fun x => ?_) h
  repeat' (first | with_reducible assumption | exact Kept.refl _ | (intro _) | with_reducible apply floatOp_kept
                 | with_reducible apply foldl_kept' | simp only [Kept.upd_iff] | split | dsimp only)

theorem execFsub_kept {f : Fields} {s t : State} (h : execFsub f s = .next t) : Kept s t := by
  refine runWave_kept (fun x => ?_) h
  repeat' (first | with_reducible assumption | exact Kept.refl _ | (intro _) | with_reducible apply floatOp_kept
                 | with_reducible apply foldl_kept' | simp only [Kept.upd_iff] | split | dsimp only)

theorem execFmul_kept {f : Fields} {s t : State} (h : execFmul f s = .next t) : Kept s t := by
  refine runWave_kept (fun x => ?_) h
  repeat' (first | with_reducible assumption | exact Kept.refl _ | (intro _) | with_reducible apply floatOp_kept
                 | with_reducible apply foldl_kept' | simp only [Kept.upd_iff] | split | dsimp only)

theorem execFma_kept {f : Fields} {s t : State} (h : execFma f s = .next t) : Kept s t := by
  refine runWave_kept (fun x => ?_) h
  repeat' (first | with_reducible assumption | exact Kept.refl _ | (intro _) | with_reducible apply floatOp_kept
                 | with_reducible apply foldl_kept' | simp only [Kept.upd_iff] | split | dsimp only)

theorem execFmin_kept {f : Fields} {s t : State} (h : execFmin f s = .next t) : Kept s t := by
  refine runWave_kept (fun x => ?_) h
  repeat' (first | with_reducible assumption | exact Kept.refl _ | (intro _) | with_reducible apply floatOp_kept
                 | with_reducible apply foldl_kept' | simp only [Kept.upd_iff] | split | dsimp only)

theorem execFmax_kept {f : Fields} {s t : State} (h : execFmax f s = .next t) : Kept s t := by
  refine runWave_kept (fun x => ?_) h
  repeat' (first | with_reducible assumption | exact Kept.refl _ | (intro _) | with_reducible apply floatOp_kept
                 | with_reducible apply foldl_kept' | simp only [Kept.upd_iff] | split | dsimp only)

theorem execFcmp_kept {f : Fields} {s t : State} (h : execFcmp f s = .next t) : Kept s t := by
  refine runWave_kept (fun x => ?_) h
  repeat' (first | with_reducible assumption | exact Kept.refl _ | (intro _) | with_reducible apply computesPred_kept
                 | with_reducible apply foldl_kept' | simp only [Kept.upd_iff] | split | dsimp only)

theorem execFclass_kept {f : Fields} {s t : State} (h : execFclass f s = .next t) : Kept s t := by
  refine runWave_kept (fun x => ?_) h
  repeat' (first | with_reducible assumption | exact Kept.refl _ | (intro _) | with_reducible apply computes_kept
                 | with_reducible apply foldl_kept' | simp only [Kept.upd_iff] | split | dsimp only)

theorem execFscale_kept {f : Fields} {s t : State} (h : execFscale f s = .next t) : Kept s t := by
  refine runWave_kept (fun x => ?_) h
  repeat' (first | with_reducible assumption | exact Kept.refl _ | (intro _) | with_reducible apply floatOp_kept
                 | with_reducible apply foldl_kept' | simp only [Kept.upd_iff] | split | dsimp only)

theorem execFrnd_kept {f : Fields} {s t : State} (h : execFrnd f s = .next t) : Kept s t := by
  refine runWave_kept (fun x => ?_) h
  repeat' (first | with_reducible assumption | exact Kept.refl _ | (intro _) | with_reducible apply floatOp_kept
                 | with_reducible apply foldl_kept' | simp only [Kept.upd_iff] | split | dsimp only)

theorem execFsgn_kept {f : Fields} {s t : State} (h : execFsgn f s = .next t) : Kept s t := by
  refine runWave_kept (fun x => ?_) h
  repeat' (first | with_reducible assumption | exact Kept.refl _ | (intro _) | with_reducible apply Issue.write_kept
                 | with_reducible apply foldl_kept' | simp only [Kept.upd_iff] | split | dsimp only)

theorem execHfma2_kept {f : Fields} {s t : State} (h : execHfma2 f s = .next t) : Kept s t := by
  refine runWave_kept (fun x => ?_) h
  repeat' (first | with_reducible assumption | exact Kept.refl _ | (intro _) | with_reducible apply packedOp_kept
                 | with_reducible apply foldl_kept' | simp only [Kept.upd_iff] | split | dsimp only)

theorem execHadd2_kept {f : Fields} {s t : State} (h : execHadd2 f s = .next t) : Kept s t := by
  refine runWave_kept (fun x => ?_) h
  repeat' (first | with_reducible assumption | exact Kept.refl _ | (intro _) | with_reducible apply packedOp_kept
                 | with_reducible apply foldl_kept' | simp only [Kept.upd_iff] | split | dsimp only)

theorem execHmul2_kept {f : Fields} {s t : State} (h : execHmul2 f s = .next t) : Kept s t := by
  refine runWave_kept (fun x => ?_) h
  repeat' (first | with_reducible assumption | exact Kept.refl _ | (intro _) | with_reducible apply packedOp_kept
                 | with_reducible apply foldl_kept' | simp only [Kept.upd_iff] | split | dsimp only)

theorem execFdot2_kept {f : Fields} {s t : State} (h : execFdot2 f s = .next t) : Kept s t := by
  refine runWave_kept (fun x => ?_) h
  repeat' (first | with_reducible assumption | exact Kept.refl _ | (intro _) | with_reducible apply dotOp_kept
                 | with_reducible apply foldl_kept' | simp only [Kept.upd_iff] | split | dsimp only)

theorem execFdot4_kept {f : Fields} {s t : State} (h : execFdot4 f s = .next t) : Kept s t := by
  refine runWave_kept (fun x => ?_) h
  repeat' (first | with_reducible assumption | exact Kept.refl _ | (intro _) | with_reducible apply dotOp_kept
                 | with_reducible apply foldl_kept' | simp only [Kept.upd_iff] | split | dsimp only)

theorem execCvtf_kept {f : Fields} {s t : State} (h : execCvtf f s = .next t) : Kept s t := by
  refine runWave_kept (fun x => ?_) h
  repeat' (first | with_reducible assumption | exact Kept.refl _ | (intro _) | with_reducible apply Issue.write_kept
                 | with_reducible apply foldl_kept' | simp only [Kept.upd_iff] | split | dsimp only)

theorem execCvtfi_kept {f : Fields} {s t : State} (h : execCvtfi f s = .next t) : Kept s t := by
  refine runWave_kept (fun x => ?_) h
  repeat' (first | with_reducible assumption | exact Kept.refl _ | (intro _) | with_reducible apply Issue.write_kept
                 | with_reducible apply foldl_kept' | simp only [Kept.upd_iff] | split | dsimp only)

theorem execCvtif_kept {f : Fields} {s t : State} (h : execCvtif f s = .next t) : Kept s t := by
  refine runWave_kept (fun x => ?_) h
  repeat' (first | with_reducible assumption | exact Kept.refl _ | (intro _) | with_reducible apply Issue.write_kept
                 | with_reducible apply foldl_kept' | simp only [Kept.upd_iff] | split | dsimp only)

theorem execPack_kept {f : Fields} {s t : State} (h : execPack f s = .next t) : Kept s t := by
  refine runWave_kept (fun x => ?_) h
  repeat' (first | with_reducible assumption | exact Kept.refl _ | (intro _) | with_reducible apply Issue.write_kept
                 | with_reducible apply foldl_kept' | simp only [Kept.upd_iff] | split | dsimp only)

theorem execUnpack_kept {f : Fields} {s t : State} (h : execUnpack f s = .next t) : Kept s t := by
  refine runWave_kept (fun x => ?_) h
  repeat' (first | with_reducible assumption | exact Kept.refl _ | (intro _) | with_reducible apply Issue.write_kept
                 | with_reducible apply foldl_kept' | simp only [Kept.upd_iff] | split | dsimp only)

theorem execCvttd_kept {f : Fields} {s t : State} (h : execCvttd f s = .next t) : Kept s t := by
  refine runWave_kept (fun x => ?_) h
  repeat' (first | with_reducible assumption | exact Kept.refl _ | (intro _) | with_reducible apply Issue.write_kept
                 | with_reducible apply foldl_kept' | simp only [Kept.upd_iff] | split | dsimp only)

theorem execRcps_kept {f : Fields} {s t : State} (h : execRcps f s = .next t) : Kept s t := by
  refine runWave_kept (fun x => ?_) h
  repeat' (first | with_reducible assumption | exact Kept.refl _ | (intro _) | with_reducible apply sfuOp_kept
                 | with_reducible apply foldl_kept' | simp only [Kept.upd_iff] | split | dsimp only)

theorem execRsqs_kept {f : Fields} {s t : State} (h : execRsqs f s = .next t) : Kept s t := by
  refine runWave_kept (fun x => ?_) h
  repeat' (first | with_reducible assumption | exact Kept.refl _ | (intro _) | with_reducible apply sfuOp_kept
                 | with_reducible apply foldl_kept' | simp only [Kept.upd_iff] | split | dsimp only)

theorem execRcp_kept {f : Fields} {s t : State} (h : execRcp f s = .next t) : Kept s t := by
  refine runWave_kept (fun x => ?_) h
  repeat' (first | with_reducible assumption | exact Kept.refl _ | (intro _) | with_reducible apply sfuOp_kept
                 | with_reducible apply foldl_kept' | simp only [Kept.upd_iff] | split | dsimp only)

theorem execRsq_kept {f : Fields} {s t : State} (h : execRsq f s = .next t) : Kept s t := by
  refine runWave_kept (fun x => ?_) h
  repeat' (first | with_reducible assumption | exact Kept.refl _ | (intro _) | with_reducible apply sfuOp_kept
                 | with_reducible apply foldl_kept' | simp only [Kept.upd_iff] | split | dsimp only)

theorem execSqrt_kept {f : Fields} {s t : State} (h : execSqrt f s = .next t) : Kept s t := by
  refine runWave_kept (fun x => ?_) h
  repeat' (first | with_reducible assumption | exact Kept.refl _ | (intro _) | with_reducible apply sfuOp_kept
                 | with_reducible apply foldl_kept' | simp only [Kept.upd_iff] | split | dsimp only)

theorem execExp2_kept {f : Fields} {s t : State} (h : execExp2 f s = .next t) : Kept s t := by
  refine runWave_kept (fun x => ?_) h
  repeat' (first | with_reducible assumption | exact Kept.refl _ | (intro _) | with_reducible apply sfuOp_kept
                 | with_reducible apply foldl_kept' | simp only [Kept.upd_iff] | split | dsimp only)

theorem execLog2_kept {f : Fields} {s t : State} (h : execLog2 f s = .next t) : Kept s t := by
  refine runWave_kept (fun x => ?_) h
  repeat' (first | with_reducible assumption | exact Kept.refl _ | (intro _) | with_reducible apply sfuOp_kept
                 | with_reducible apply foldl_kept' | simp only [Kept.upd_iff] | split | dsimp only)

theorem execSinp_kept {f : Fields} {s t : State} (h : execSinp f s = .next t) : Kept s t := by
  refine runWave_kept (fun x => ?_) h
  repeat' (first | with_reducible assumption | exact Kept.refl _ | (intro _) | with_reducible apply sfuOp_kept
                 | with_reducible apply foldl_kept' | simp only [Kept.upd_iff] | split | dsimp only)

theorem execCosp_kept {f : Fields} {s t : State} (h : execCosp f s = .next t) : Kept s t := by
  refine runWave_kept (fun x => ?_) h
  repeat' (first | with_reducible assumption | exact Kept.refl _ | (intro _) | with_reducible apply sfuOp_kept
                 | with_reducible apply foldl_kept' | simp only [Kept.upd_iff] | split | dsimp only)

theorem execTanh_kept {f : Fields} {s t : State} (h : execTanh f s = .next t) : Kept s t := by
  refine runWave_kept (fun x => ?_) h
  repeat' (first | with_reducible assumption | exact Kept.refl _ | (intro _) | with_reducible apply sfuOp_kept
                 | with_reducible apply foldl_kept' | simp only [Kept.upd_iff] | split | dsimp only)

theorem execLd_kept {f : Fields} {s t : State} (h : execLd f s = .next t) : Kept s t := by
  refine runWave_kept (fun x => ?_) h
  repeat' (first | with_reducible assumption | exact Kept.refl _ | (intro _) | with_reducible apply memChecked_kept
                 | with_reducible apply loadBody_kept | with_reducible apply foldl_kept' | simp only [Kept.upd_iff] | split
                 | dsimp only)

theorem execLdacq_kept {f : Fields} {s t : State} (h : execLdacq f s = .next t) : Kept s t := by
  refine runWave_kept (fun x => ?_) h
  repeat' (first | with_reducible assumption | exact Kept.refl _ | (intro _) | with_reducible apply memChecked_kept
                 | with_reducible apply loadBody_kept | with_reducible apply foldl_kept' | simp only [Kept.upd_iff] | split
                 | dsimp only)

theorem execSt_kept {f : Fields} {s t : State} (h : execSt f s = .next t) : Kept s t := by
  refine runWave_kept (fun x => ?_) h
  repeat' (first | with_reducible assumption | exact Kept.refl _ | (intro _) | with_reducible apply memChecked_kept
                 | with_reducible apply writeBody_kept | with_reducible apply foldl_kept' | simp only [Kept.upd_iff] | split
                 | dsimp only)

theorem execStrel_kept {f : Fields} {s t : State} (h : execStrel f s = .next t) : Kept s t := by
  refine runWave_kept (fun x => ?_) h
  repeat' (first | with_reducible assumption | exact Kept.refl _ | (intro _) | with_reducible apply releaseReports_kept
                 | with_reducible apply memChecked_kept | with_reducible apply writeBody_kept
                 | with_reducible apply foldl_kept' | simp only [Kept.upd_iff] | split | dsimp only)

theorem execAtom_kept {f : Fields} {s t : State} (h : execAtom f s = .next t) : Kept s t := by
  refine runWave_kept (fun x => ?_) h
  repeat' (first | with_reducible assumption | exact Kept.refl _ | (intro _) | with_reducible apply releaseReports_kept
                 | with_reducible apply memChecked_kept | with_reducible apply writeBody_kept
                 | with_reducible apply foldl_kept' | simp only [Kept.upd_iff] | split | dsimp only)

theorem execAtomc_kept {f : Fields} {s t : State} (h : execAtomc f s = .next t) : Kept s t := by
  refine runWave_kept (fun x => ?_) h
  repeat' (first | with_reducible assumption | exact Kept.refl _ | (intro _) | with_reducible apply releaseReports_kept
                 | with_reducible apply memChecked_kept | with_reducible apply writeBody_kept
                 | with_reducible apply foldl_kept' | simp only [Kept.upd_iff] | split | dsimp only)

theorem execAtomf_kept {f : Fields} {s t : State} (h : execAtomf f s = .next t) : Kept s t := by
  refine runWave_kept (fun x => ?_) h
  repeat' (first | with_reducible assumption | exact Kept.refl _ | (intro _) | with_reducible apply releaseReports_kept
                 | with_reducible apply memChecked_kept | with_reducible apply writeBody_kept
                 | with_reducible apply foldl_kept' | simp only [Kept.upd_iff] | split | dsimp only)

theorem execRed_kept {f : Fields} {s t : State} (h : execRed f s = .next t) : Kept s t := by
  refine runWave_kept (fun x => ?_) h
  repeat' (first | with_reducible assumption | exact Kept.refl _ | (intro _) | with_reducible apply releaseReports_kept
                 | with_reducible apply memChecked_kept | with_reducible apply writeBody_kept
                 | with_reducible apply foldl_kept' | simp only [Kept.upd_iff] | split | dsimp only)

theorem execFence_kept {f : Fields} {s t : State} (h : execFence f s = .next t) : Kept s t := by
  refine runWave_kept (fun x => ?_) h
  repeat' (first | with_reducible assumption | exact Kept.refl _ | (intro _) | with_reducible apply fenceReports_kept
                 | with_reducible apply fenceBody_kept | with_reducible apply foldl_kept' | simp only [Kept.upd_iff] | split
                 | dsimp only)

theorem execFencer_kept {f : Fields} {s t : State} (h : execFencer f s = .next t) : Kept s t := by
  refine runWave_kept (fun x => ?_) h
  repeat' (first | with_reducible assumption | exact Kept.refl _ | (intro _) | with_reducible apply plain_kept
                 | with_reducible apply Issue.fencerOne_kept | with_reducible apply foldl_kept' | simp only [Kept.upd_iff]
                 | split | dsimp only)

theorem execPref_kept {f : Fields} {s t : State} (h : execPref f s = .next t) : Kept s t := by
  refine runWave_kept (fun x => ?_) h
  repeat' (first | with_reducible assumption | exact Kept.refl _ | (intro _) | with_reducible apply plain_kept
                 | with_reducible apply Issue.prefetch_kept | with_reducible apply foldl_kept' | simp only [Kept.upd_iff]
                 | split | dsimp only)

theorem execStloop_kept {f : Fields} {s t : State} (h : execStloop f s = .next t) : Kept s t := by
  refine runWave_kept (fun x => ?_) h
  repeat' (first | with_reducible assumption | exact Kept.refl _ | (intro _) | with_reducible apply stloopBody_kept
                 | with_reducible apply foldl_kept' | simp only [Kept.upd_iff] | split | dsimp only)

theorem execStadv_kept {f : Fields} {s t : State} (h : execStadv f s = .next t) : Kept s t := by
  refine runWave_kept (fun x => ?_) h
  repeat' (first | with_reducible assumption | exact Kept.refl _ | (intro _) | with_reducible apply unlessRaised_kept
                 | with_reducible apply stageEffect_kept | with_reducible apply foldl_kept' | simp only [Kept.upd_iff]
                 | split | dsimp only)

theorem execStjmp_kept {f : Fields} {s t : State} (h : execStjmp f s = .next t) : Kept s t := by
  refine runWave_kept (fun x => ?_) h
  repeat' (first | with_reducible assumption | exact Kept.refl _ | (intro _) | with_reducible apply unlessRaised_kept
                 | with_reducible apply stageEffect_kept | with_reducible apply foldl_kept' | simp only [Kept.upd_iff]
                 | split | dsimp only)

theorem execStend_kept {f : Fields} {s t : State} (h : execStend f s = .next t) : Kept s t := by
  refine runWave_kept (fun x => ?_) h
  repeat' (first | with_reducible assumption | exact Kept.refl _ | (intro _) | with_reducible apply unlessRaised_kept
                 | with_reducible apply stageEffect_kept | with_reducible apply foldl_kept' | simp only [Kept.upd_iff]
                 | split | dsimp only)

theorem execWaitl_kept {f : Fields} {s t : State} (h : execWaitl f s = .next t) : Kept s t := by
  refine runWave_kept (fun x => ?_) h
  repeat' (first | with_reducible assumption | exact Kept.refl _ | (intro _) | with_reducible apply unlessRaised_kept
                 | with_reducible apply waitlBody_kept | with_reducible apply foldl_kept' | simp only [Kept.upd_iff] | split
                 | dsimp only)

theorem execStget_kept {f : Fields} {s t : State} (h : execStget f s = .next t) : Kept s t := by
  refine runWave_kept (fun x => ?_) h
  repeat' (first | with_reducible assumption | exact Kept.refl _ | (intro _) | with_reducible apply unlessRaised_kept
                 | with_reducible apply stgetAll_kept | with_reducible apply foldl_kept' | simp only [Kept.upd_iff] | split
                 | dsimp only)

theorem execStqry_kept {f : Fields} {s t : State} (h : execStqry f s = .next t) : Kept s t := by
  refine runWave_kept (fun x => ?_) h
  repeat' (first | with_reducible assumption | exact Kept.refl _ | (intro _) | with_reducible apply unlessRaised_kept
                 | with_reducible apply computes_kept | with_reducible apply foldl_kept' | simp only [Kept.upd_iff] | split
                 | dsimp only)

theorem execNop_kept {f : Fields} {s t : State} (h : execNop f s = .next t) : Kept s t := by
  refine runWave_kept (fun x => ?_) h
  repeat' (first | with_reducible assumption | exact Kept.refl _ | (intro _) | with_reducible apply plain_kept
                 | with_reducible apply foldl_kept' | simp only [Kept.upd_iff] | split | dsimp only)

theorem execBra_kept {f : Fields} {s t : State} (h : execBra f s = .next t) : Kept s t := by
  refine runWave_kept (fun x => ?_) h
  repeat' (first | with_reducible assumption | exact Kept.refl _ | (intro _) | with_reducible apply branchBody_kept
                 | with_reducible apply foldl_kept' | simp only [Kept.upd_iff] | split | dsimp only)

theorem execBrx_kept {f : Fields} {s t : State} (h : execBrx f s = .next t) : Kept s t := by
  refine runWave_kept (fun x => ?_) h
  repeat' (first | with_reducible assumption | exact Kept.refl _ | (intro _) | with_reducible apply branchBody_kept
                 | with_reducible apply foldl_kept' | simp only [Kept.upd_iff] | split | dsimp only)

theorem execCall_kept {f : Fields} {s t : State} (h : execCall f s = .next t) : Kept s t := by
  refine runWave_kept (fun x => ?_) h
  repeat' (first | with_reducible assumption | exact Kept.refl _ | (intro _) | with_reducible apply unlessRaised_kept
                 | with_reducible apply callBody_kept | with_reducible apply foldl_kept' | simp only [Kept.upd_iff] | split
                 | dsimp only)

theorem execCallx_kept {f : Fields} {s t : State} (h : execCallx f s = .next t) : Kept s t := by
  refine runWave_kept (fun x => ?_) h
  repeat' (first | with_reducible assumption | exact Kept.refl _ | (intro _) | with_reducible apply unlessRaised_kept
                 | with_reducible apply callBody_kept | with_reducible apply foldl_kept' | simp only [Kept.upd_iff] | split
                 | dsimp only)

theorem execExit_kept {f : Fields} {s t : State} (h : execExit f s = .next t) : Kept s t := by
  refine runWave_kept (fun x => ?_) h
  repeat' (first | with_reducible assumption | exact Kept.refl _ | (intro _) | with_reducible apply exitBody_kept
                 | with_reducible apply foldl_kept' | simp only [Kept.upd_iff] | split | dsimp only)

theorem execRet_kept {f : Fields} {s t : State} (h : execRet f s = .next t) : Kept s t := by
  refine runWave_kept (fun x => ?_) h
  repeat' (first | with_reducible assumption | exact Kept.refl _ | (intro _) | with_reducible apply retBody_kept
                 | with_reducible apply foldl_kept' | simp only [Kept.upd_iff] | split | dsimp only)

theorem execReform_kept {f : Fields} {s t : State} (h : execReform f s = .next t) : Kept s t := by
  refine runWave_kept (fun x => ?_) h
  repeat' (first | with_reducible assumption | exact Kept.refl _ | (intro _) | with_reducible apply reformBody_kept
                 | with_reducible apply foldl_kept' | simp only [Kept.upd_iff] | split | dsimp only)

theorem execReconv_kept {f : Fields} {s t : State} (h : execReconv f s = .next t) : Kept s t := by
  refine runWave_kept (fun x => ?_) h
  repeat' (first | with_reducible assumption | exact Kept.refl _ | (intro _) | with_reducible apply plain_kept
                 | with_reducible apply Issue.block_kept | with_reducible apply foldl_kept' | simp only [Kept.upd_iff]
                 | split | dsimp only)

theorem execYield_kept {f : Fields} {s t : State} (h : execYield f s = .next t) : Kept s t := by
  refine runWave_kept (fun x => ?_) h
  repeat' (first | with_reducible assumption | exact Kept.refl _ | (intro _) | with_reducible apply plain_kept
                 | with_reducible apply foldl_kept' | simp only [Kept.upd_iff] | split | dsimp only)

theorem execPause_kept {f : Fields} {s t : State} (h : execPause f s = .next t) : Kept s t := by
  refine runWave_kept (fun x => ?_) h
  repeat' (first | with_reducible assumption | exact Kept.refl _ | (intro _) | with_reducible apply pauseBody_kept
                 | with_reducible apply foldl_kept' | simp only [Kept.upd_iff] | split | dsimp only)

theorem execTrap_kept {f : Fields} {s t : State} (h : execTrap f s = .next t) : Kept s t := by
  refine runWave_kept (fun x => ?_) h
  repeat' (first | with_reducible assumption | exact Kept.refl _ | (intro _) | with_reducible apply unlessRaised_kept
                 | with_reducible apply plain_kept | with_reducible apply foldl_kept' | simp only [Kept.upd_iff] | split
                 | dsimp only)

theorem execSreg_kept {f : Fields} {s t : State} (h : execSreg f s = .next t) : Kept s t := by
  refine runWave_kept (fun x => ?_) h
  repeat' (first | with_reducible assumption | exact Kept.refl _ | (intro _) | with_reducible apply computes_kept
                 | with_reducible apply foldl_kept' | simp only [Kept.upd_iff] | split | dsimp only)

theorem execSwreg_kept {f : Fields} {s t : State} (h : execSwreg f s = .next t) : Kept s t := by
  refine runWave_kept (fun x => ?_) h
  repeat' (first | with_reducible assumption | exact Kept.refl _ | (intro _) | with_reducible apply swregBody_kept
                 | with_reducible apply foldl_kept' | simp only [Kept.upd_iff] | split | dsimp only)

theorem execBar_kept {f : Fields} {s t : State} (h : execBar f s = .next t) : Kept s t := by
  refine runWave_kept (fun x => ?_) h
  repeat' (first | with_reducible assumption | exact Kept.refl _ | (intro _) | with_reducible apply barBody_kept
                 | with_reducible apply foldl_kept' | simp only [Kept.upd_iff] | split | dsimp only)

theorem execBara_kept {f : Fields} {s t : State} (h : execBara f s = .next t) : Kept s t := by
  refine runWave_kept (fun x => ?_) h
  repeat' (first | with_reducible assumption | exact Kept.refl _ | (intro _) | with_reducible apply barBody_kept
                 | with_reducible apply foldl_kept' | simp only [Kept.upd_iff] | split | dsimp only)

theorem execBarw_kept {f : Fields} {s t : State} (h : execBarw f s = .next t) : Kept s t := by
  refine runWave_kept (fun x => ?_) h
  repeat' (first | with_reducible assumption | exact Kept.refl _ | (intro _) | with_reducible apply barwBody_kept
                 | with_reducible apply foldl_kept' | simp only [Kept.upd_iff] | split | dsimp only)

theorem execEvset_kept {f : Fields} {s t : State} (h : execEvset f s = .next t) : Kept s t := by
  refine runWave_kept (fun x => ?_) h
  repeat' (first | with_reducible assumption | exact Kept.refl _ | (intro _) | with_reducible apply evsetBody_kept
                 | with_reducible apply foldl_kept' | simp only [Kept.upd_iff] | split | dsimp only)

theorem execEvclr_kept {f : Fields} {s t : State} (h : execEvclr f s = .next t) : Kept s t := by
  refine runWave_kept (fun x => ?_) h
  repeat' (first | with_reducible assumption | exact Kept.refl _ | (intro _) | with_reducible apply plain_kept
                 | with_reducible apply Issue.updEvents_kept | with_reducible apply foldl_kept' | simp only [Kept.upd_iff]
                 | split | dsimp only)

theorem execEvwait_kept {f : Fields} {s t : State} (h : execEvwait f s = .next t) : Kept s t := by
  refine runWave_kept (fun x => ?_) h
  repeat' (first | with_reducible assumption | exact Kept.refl _ | (intro _) | with_reducible apply evwaitBody_kept
                 | with_reducible apply foldl_kept' | simp only [Kept.upd_iff] | split | dsimp only)

theorem execEvread_kept {f : Fields} {s t : State} (h : execEvread f s = .next t) : Kept s t := by
  refine runWave_kept (fun x => ?_) h
  repeat' (first | with_reducible assumption | exact Kept.refl _ | (intro _) | with_reducible apply computes_kept
                 | with_reducible apply foldl_kept' | simp only [Kept.upd_iff] | split | dsimp only)

theorem execTaskpost_kept {f : Fields} {s t : State} (h : execTaskpost f s = .next t) : Kept s t := by
  refine runWave_kept (fun x => ?_) h
  repeat' (first | with_reducible assumption | exact Kept.refl _ | (intro _) | with_reducible apply recordChecked_kept
                 | with_reducible apply taskpostBody_kept | with_reducible apply foldl_kept' | simp only [Kept.upd_iff]
                 | split | dsimp only)

theorem execTaskend_kept {f : Fields} {s t : State} (h : execTaskend f s = .next t) : Kept s t := by
  refine runWave_kept (fun x => ?_) h
  repeat' (first | with_reducible assumption | exact Kept.refl _ | (intro _) | with_reducible apply unlessRaised_kept
                 | with_reducible apply afterRelease_kept | with_reducible apply Issue.taskendOne_kept
                 | with_reducible apply foldl_kept' | simp only [Kept.upd_iff] | split | dsimp only)

theorem execSofput_kept {f : Fields} {s t : State} (h : execSofput f s = .next t) : Kept s t := by
  refine runWave_kept (fun x => ?_) h
  repeat' (first | with_reducible assumption | exact Kept.refl _ | (intro _) | with_reducible apply afterRelease_kept
                 | with_reducible apply Issue.sofputOne_kept | with_reducible apply foldl_kept' | simp only [Kept.upd_iff]
                 | split | dsimp only)

theorem execSofget_kept {f : Fields} {s t : State} (h : execSofget f s = .next t) : Kept s t := by
  refine runWave_kept (fun x => ?_) h
  repeat' (first | with_reducible assumption | exact Kept.refl _ | (intro _) | with_reducible apply plain_kept
                 | with_reducible apply Issue.sofgetOne_kept | with_reducible apply foldl_kept' | simp only [Kept.upd_iff]
                 | split | dsimp only)

theorem execLaunchdep_kept {f : Fields} {s t : State} (h : execLaunchdep f s = .next t) : Kept s t := by
  refine runWave_kept (fun x => ?_) h
  repeat' (first | with_reducible assumption | exact Kept.refl _ | (intro _) | with_reducible apply afterRelease_kept
                 | with_reducible apply State.updThreads_kept | with_reducible apply foldl_kept' | simp only [Kept.upd_iff]
                 | split | dsimp only)

theorem execJoin_kept {f : Fields} {s t : State} (h : execJoin f s = .next t) : Kept s t := by
  refine runWave_kept (fun x => ?_) h
  repeat' (first | with_reducible assumption | exact Kept.refl _ | (intro _) | with_reducible apply unlessRaised_kept
                 | with_reducible apply joinBody_kept | with_reducible apply foldl_kept' | simp only [Kept.upd_iff] | split
                 | dsimp only)

theorem execPdecl_kept {f : Fields} {s t : State} (h : execPdecl f s = .next t) : Kept s t := by
  refine runWave_kept (fun x => ?_) h
  repeat' (first | with_reducible assumption | exact Kept.refl _ | (intro _) | with_reducible apply whenReady_kept
                 | with_reducible apply unlessRaised_kept | with_reducible apply plain_kept
                 | with_reducible apply Issue.pdeclOne_kept | with_reducible apply foldl_kept' | simp only [Kept.upd_iff]
                 | split | dsimp only)

theorem execPenter_kept {f : Fields} {s t : State} (h : execPenter f s = .next t) : Kept s t := by
  refine runWave_kept (fun x => ?_) h
  repeat' (first | with_reducible assumption | exact Kept.refl _ | (intro _) | with_reducible apply plain_kept
                 | with_reducible apply Issue.penterOne_kept | with_reducible apply foldl_kept' | simp only [Kept.upd_iff]
                 | split | dsimp only)

theorem execPleave_kept {f : Fields} {s t : State} (h : execPleave f s = .next t) : Kept s t := by
  refine runWave_kept (fun x => ?_) h
  repeat' (first | with_reducible assumption | exact Kept.refl _ | (intro _) | with_reducible apply plain_kept
                 | with_reducible apply Issue.pleaveOne_kept | with_reducible apply foldl_kept' | simp only [Kept.upd_iff]
                 | split | dsimp only)

theorem execPfree_kept {f : Fields} {s t : State} (h : execPfree f s = .next t) : Kept s t := by
  refine runWave_kept (fun x => ?_) h
  repeat' (first | with_reducible assumption | exact Kept.refl _ | (intro _) | with_reducible apply plain_kept
                 | with_reducible apply Issue.pfreeOne_kept | with_reducible apply foldl_kept' | simp only [Kept.upd_iff]
                 | split | dsimp only)

theorem execPstat_kept {f : Fields} {s t : State} (h : execPstat f s = .next t) : Kept s t := by
  refine runWave_kept (fun x => ?_) h
  repeat' (first | with_reducible assumption | exact Kept.refl _ | (intro _) | with_reducible apply computes_kept
                 | with_reducible apply foldl_kept' | simp only [Kept.upd_iff] | split | dsimp only)

theorem execLease_kept {f : Fields} {s t : State} (h : execLease f s = .next t) : Kept s t := by
  refine runWave_kept (fun x => ?_) h
  repeat' (first | with_reducible assumption | exact Kept.refl _ | (intro _) | with_reducible apply plain_kept
                 | with_reducible apply Issue.leaseOne_kept | with_reducible apply foldl_kept' | simp only [Kept.upd_iff]
                 | split | dsimp only)

theorem execUnlease_kept {f : Fields} {s t : State} (h : execUnlease f s = .next t) : Kept s t := by
  refine runWave_kept (fun x => ?_) h
  repeat' (first | with_reducible assumption | exact Kept.refl _ | (intro _) | with_reducible apply plain_kept
                 | with_reducible apply Issue.unleaseOne_kept | with_reducible apply foldl_kept' | simp only [Kept.upd_iff]
                 | split | dsimp only)

theorem execLstat_kept {f : Fields} {s t : State} (h : execLstat f s = .next t) : Kept s t := by
  refine runWave_kept (fun x => ?_) h
  repeat' (first | with_reducible assumption | exact Kept.refl _ | (intro _) | with_reducible apply computes_kept
                 | with_reducible apply foldl_kept' | simp only [Kept.upd_iff] | split | dsimp only)

theorem execSlotres_kept {f : Fields} {s t : State} (h : execSlotres f s = .next t) : Kept s t := by
  refine runWave_kept (fun x => ?_) h
  repeat' (first | with_reducible assumption | exact Kept.refl _ | (intro _) | with_reducible apply slotBody_kept
                 | with_reducible apply foldl_kept' | simp only [Kept.upd_iff] | split | dsimp only)

theorem execSlottake_kept {f : Fields} {s t : State} (h : execSlottake f s = .next t) : Kept s t := by
  refine runWave_kept (fun x => ?_) h
  repeat' (first | with_reducible assumption | exact Kept.refl _ | (intro _) | with_reducible apply slotBody_kept
                 | with_reducible apply foldl_kept' | simp only [Kept.upd_iff] | split | dsimp only)

theorem execSlotdone_kept {f : Fields} {s t : State} (h : execSlotdone f s = .next t) : Kept s t := by
  refine runWave_kept (fun x => ?_) h
  repeat' (first | with_reducible assumption | exact Kept.refl _ | (intro _) | with_reducible apply afterRelease_kept
                 | with_reducible apply slotBody_kept | with_reducible apply foldl_kept' | simp only [Kept.upd_iff] | split
                 | dsimp only)

theorem execSlotfill_kept {f : Fields} {s t : State} (h : execSlotfill f s = .next t) : Kept s t := by
  refine runWave_kept (fun x => ?_) h
  repeat' (first | with_reducible assumption | exact Kept.refl _ | (intro _) | with_reducible apply afterRelease_kept
                 | with_reducible apply slotBody_kept | with_reducible apply foldl_kept' | simp only [Kept.upd_iff] | split
                 | dsimp only)

theorem execSlotpeek_kept {f : Fields} {s t : State} (h : execSlotpeek f s = .next t) : Kept s t := by
  refine runWave_kept (fun x => ?_) h
  repeat' (first | with_reducible assumption | exact Kept.refl _ | (intro _) | with_reducible apply computes_kept
                 | with_reducible apply foldl_kept' | simp only [Kept.upd_iff] | split | dsimp only)

theorem execSlotinit_kept {f : Fields} {s t : State} (h : execSlotinit f s = .next t) : Kept s t := by
  refine runWave_kept (fun x => ?_) h
  repeat' (first | with_reducible assumption | exact Kept.refl _ | (intro _) | with_reducible apply plain_kept
                 | with_reducible apply Issue.slotinitOne_kept | with_reducible apply foldl_kept' | simp only [Kept.upd_iff]
                 | split | dsimp only)

theorem execGres_kept {f : Fields} {s t : State} (h : execGres f s = .next t) : Kept s t := by
  refine runWave_kept (fun x => ?_) h
  repeat' (first | with_reducible assumption | exact Kept.refl _ | (intro _) | with_reducible apply unlessRaised_kept
                 | with_reducible apply guardBody_kept | with_reducible apply foldl_kept' | simp only [Kept.upd_iff] | split
                 | dsimp only)

theorem execGclr_kept {f : Fields} {s t : State} (h : execGclr f s = .next t) : Kept s t := by
  refine runWave_kept (fun x => ?_) h
  repeat' (first | with_reducible assumption | exact Kept.refl _ | (intro _) | with_reducible apply unlessRaised_kept
                 | with_reducible apply guardBody_kept | with_reducible apply foldl_kept' | simp only [Kept.upd_iff] | split
                 | dsimp only)

theorem execEmbq_kept {f : Fields} {s t : State} (h : execEmbq f s = .next t) : Kept s t := by
  refine runWave_kept (fun x => ?_) h
  repeat' (first | with_reducible assumption | exact Kept.refl _ | (intro _) | with_reducible apply computes_kept
                 | with_reducible apply foldl_kept' | simp only [Kept.upd_iff] | split | dsimp only)

theorem execCpy_kept {f : Fields} {s t : State} (h : execCpy f s = .next t) : Kept s t := by
  refine runWave_kept (fun x => ?_) h
  repeat' (first | with_reducible assumption | exact Kept.refl _ | (intro _) | with_reducible apply unlessRaised_kept
                 | with_reducible apply copyBody_kept | with_reducible apply foldl_kept' | simp only [Kept.upd_iff] | split
                 | dsimp only)

theorem execCpy2d_kept {f : Fields} {s t : State} (h : execCpy2d f s = .next t) : Kept s t := by
  refine runWave_kept (fun x => ?_) h
  repeat' (first | with_reducible assumption | exact Kept.refl _ | (intro _) | with_reducible apply unlessRaised_kept
                 | with_reducible apply copyBody_kept | with_reducible apply foldl_kept' | simp only [Kept.upd_iff] | split
                 | dsimp only)

theorem execCpytd_kept {f : Fields} {s t : State} (h : execCpytd f s = .next t) : Kept s t := by
  refine runWave_kept (fun x => ?_) h
  repeat' (first | with_reducible assumption | exact Kept.refl _ | (intro _) | with_reducible apply unlessRaised_kept
                 | with_reducible apply cpytdBody_kept | with_reducible apply foldl_kept' | simp only [Kept.upd_iff] | split
                 | dsimp only)

theorem execSeal_kept {f : Fields} {s t : State} (h : execSeal f s = .next t) : Kept s t := by
  refine runWave_kept (fun x => ?_) h
  repeat' (first | with_reducible assumption | exact Kept.refl _ | (intro _) | with_reducible apply plain_kept
                 | with_reducible apply Issue.sealOne_kept | with_reducible apply foldl_kept' | simp only [Kept.upd_iff]
                 | split | dsimp only)

theorem execWaitb_kept {f : Fields} {s t : State} (h : execWaitb f s = .next t) : Kept s t := by
  refine runWave_kept (fun x => ?_) h
  repeat' (first | with_reducible assumption | exact Kept.refl _ | (intro _) | with_reducible apply unlessRaised_kept
                 | with_reducible apply waitbBody_kept | with_reducible apply foldl_kept' | simp only [Kept.upd_iff] | split
                 | dsimp only)

theorem execKvcommit_kept {f : Fields} {s t : State} (h : execKvcommit f s = .next t) : Kept s t := by
  refine runWave_kept (fun x => ?_) h
  repeat' (first | with_reducible assumption | exact Kept.refl _ | (intro _) | with_reducible apply kvBody_kept
                 | with_reducible apply foldl_kept' | simp only [Kept.upd_iff] | split | dsimp only)

theorem execTdset_kept {f : Fields} {s t : State} (h : execTdset f s = .next t) : Kept s t := by
  refine runWave_kept (fun x => ?_) h
  repeat' (first | with_reducible assumption | exact Kept.refl _ | (intro _) | with_reducible apply imageChecked_kept
                 | with_reducible apply tdsetBody_kept | with_reducible apply foldl_kept' | simp only [Kept.upd_iff] | split
                 | dsimp only)

theorem execTdget_kept {f : Fields} {s t : State} (h : execTdget f s = .next t) : Kept s t := by
  refine runWave_kept (fun x => ?_) h
  repeat' (first | with_reducible assumption | exact Kept.refl _ | (intro _) | with_reducible apply computes_kept
                 | with_reducible apply foldl_kept' | simp only [Kept.upd_iff] | split | dsimp only)

theorem execMloadw_kept {f : Fields} {s t : State} (h : execMloadw f s = .next t) : Kept s t := by
  refine runWave_kept (fun x => ?_) h
  repeat' (first | with_reducible assumption | exact Kept.refl _ | (intro _) | with_reducible apply mxChecked_kept
                 | with_reducible apply foldl_kept' | simp only [Kept.upd_iff] | split | dsimp only)

theorem execMswap_kept {f : Fields} {s t : State} (h : execMswap f s = .next t) : Kept s t := by
  refine runWave_kept (fun x => ?_) h
  repeat' (first | with_reducible assumption | exact Kept.refl _ | (intro _) | with_reducible apply mxChecked_kept
                 | with_reducible apply foldl_kept' | simp only [Kept.upd_iff] | split | dsimp only)

theorem execMstream_kept {f : Fields} {s t : State} (h : execMstream f s = .next t) : Kept s t := by
  refine runWave_kept (fun x => ?_) h
  repeat' (first | with_reducible assumption | exact Kept.refl _ | (intro _) | with_reducible apply mxChecked_kept
                 | with_reducible apply foldl_kept' | simp only [Kept.upd_iff] | split | dsimp only)

theorem execMzero_kept {f : Fields} {s t : State} (h : execMzero f s = .next t) : Kept s t := by
  refine runWave_kept (fun x => ?_) h
  repeat' (first | with_reducible assumption | exact Kept.refl _ | (intro _) | with_reducible apply mxChecked_kept
                 | with_reducible apply foldl_kept' | simp only [Kept.upd_iff] | split | dsimp only)

theorem execMstore_kept {f : Fields} {s t : State} (h : execMstore f s = .next t) : Kept s t := by
  refine runWave_kept (fun x => ?_) h
  repeat' (first | with_reducible assumption | exact Kept.refl _ | (intro _) | with_reducible apply mxChecked_kept
                 | with_reducible apply foldl_kept' | simp only [Kept.upd_iff] | split | dsimp only)

theorem execMmask_kept {f : Fields} {s t : State} (h : execMmask f s = .next t) : Kept s t := by
  refine runWave_kept (fun x => ?_) h
  repeat' (first | with_reducible assumption | exact Kept.refl _ | (intro _) | with_reducible apply mxChecked_kept
                 | with_reducible apply foldl_kept' | simp only [Kept.upd_iff] | split | dsimp only)

theorem execMxop_kept {f : Fields} {s t : State} (h : execMxop f s = .next t) : Kept s t := by
  refine runWave_kept (fun x => ?_) h
  repeat' (first | with_reducible assumption | exact Kept.refl _ | (intro _) | with_reducible apply unlessRaised_kept
                 | with_reducible apply whenReady_kept | with_reducible apply mxopBody_kept
                 | with_reducible apply foldl_kept' | simp only [Kept.upd_iff] | split | dsimp only)

theorem execMresume_kept {f : Fields} {s t : State} (h : execMresume f s = .next t) : Kept s t := by
  refine runWave_kept (fun x => ?_) h
  repeat' (first | with_reducible assumption | exact Kept.refl _ | (intro _) | with_reducible apply unlessRaised_kept
                 | with_reducible apply mresumeBody_kept | with_reducible apply foldl_kept' | simp only [Kept.upd_iff]
                 | split | dsimp only)

theorem execMwait_kept {f : Fields} {s t : State} (h : execMwait f s = .next t) : Kept s t := by
  refine runWave_kept (fun x => ?_) h
  repeat' (first | with_reducible assumption | exact Kept.refl _ | (intro _) | with_reducible apply unlessRaised_kept
                 | with_reducible apply mwaitBody_kept | with_reducible apply foldl_kept' | simp only [Kept.upd_iff] | split
                 | dsimp only)

theorem execMstat_kept {f : Fields} {s t : State} (h : execMstat f s = .next t) : Kept s t := by
  refine runWave_kept (fun x => ?_) h
  repeat' (first | with_reducible assumption | exact Kept.refl _ | (intro _) | with_reducible apply computes_kept
                 | with_reducible apply foldl_kept' | simp only [Kept.upd_iff] | split | dsimp only)

theorem execLaunch_kept {f : Fields} {s t : State} (h : execLaunch f s = .next t) : Kept s t := by
  refine runWave_kept (fun x => ?_) h
  repeat' (first | with_reducible assumption | exact Kept.refl _ | (intro _) | with_reducible apply unlessRaised_kept
                 | with_reducible apply recordChecked_kept | with_reducible apply launchBody_kept
                 | with_reducible apply foldl_kept' | simp only [Kept.upd_iff] | split | dsimp only)

theorem execReggrow_kept {f : Fields} {s t : State} (h : execReggrow f s = .next t) : Kept s t := by
  refine runWave_kept (fun x => ?_) h
  repeat' (first | with_reducible assumption | exact Kept.refl _ | (intro _) | with_reducible apply unlessRaised_kept
                 | with_reducible apply growBody_kept | with_reducible apply foldl_kept' | simp only [Kept.upd_iff] | split
                 | dsimp only)

theorem execRegshrk_kept {f : Fields} {s t : State} (h : execRegshrk f s = .next t) : Kept s t := by
  refine runWave_kept (fun x => ?_) h
  repeat' (first | with_reducible assumption | exact Kept.refl _ | (intro _) | with_reducible apply unlessRaised_kept
                 | with_reducible apply growBody_kept | with_reducible apply foldl_kept' | simp only [Kept.upd_iff] | split
                 | dsimp only)

theorem execWbsend_kept {f : Fields} {s t : State} (h : execWbsend f s = .next t) : Kept s t := by
  refine runWave_kept (fun x => ?_) h
  repeat' (first | with_reducible assumption | exact Kept.refl _ | (intro _) | with_reducible apply fabricOp_kept
                 | with_reducible apply foldl_kept' | simp only [Kept.upd_iff] | split | dsimp only)

theorem execAmsg_kept {f : Fields} {s t : State} (h : execAmsg f s = .next t) : Kept s t := by
  refine runWave_kept (fun x => ?_) h
  repeat' (first | with_reducible assumption | exact Kept.refl _ | (intro _) | with_reducible apply fabricOp_kept
                 | with_reducible apply foldl_kept' | simp only [Kept.upd_iff] | split | dsimp only)

theorem execRstore_kept {f : Fields} {s t : State} (h : execRstore f s = .next t) : Kept s t := by
  refine runWave_kept (fun x => ?_) h
  repeat' (first | with_reducible assumption | exact Kept.refl _ | (intro _) | with_reducible apply fabricOp_kept
                 | with_reducible apply foldl_kept' | simp only [Kept.upd_iff] | split | dsimp only)

theorem execRsig_kept {f : Fields} {s t : State} (h : execRsig f s = .next t) : Kept s t := by
  refine runWave_kept (fun x => ?_) h
  repeat' (first | with_reducible assumption | exact Kept.refl _ | (intro _) | with_reducible apply fabricOp_kept
                 | with_reducible apply foldl_kept' | simp only [Kept.upd_iff] | split | dsimp only)

theorem execWbchk_kept {f : Fields} {s t : State} (h : execWbchk f s = .next t) : Kept s t := by
  refine runWave_kept (fun x => ?_) h
  repeat' (first | with_reducible assumption | exact Kept.refl _ | (intro _) | with_reducible apply nacksFirst_kept
                 | with_reducible apply unlessRaised_kept | with_reducible apply whenReady_kept | with_reducible apply mapSound_kept
                 | with_reducible apply computes_kept | with_reducible apply foldl_kept' | simp only [Kept.upd_iff] | split
                 | dsimp only)

theorem execTmapq_kept {f : Fields} {s t : State} (h : execTmapq f s = .next t) : Kept s t := by
  refine runWave_kept (fun x => ?_) h
  repeat' (first | with_reducible assumption | exact Kept.refl _ | (intro _) | with_reducible apply nacksFirst_kept
                 | with_reducible apply mapSound_kept | with_reducible apply computes_kept
                 | with_reducible apply foldl_kept' | simp only [Kept.upd_iff] | split | dsimp only)

theorem execAssert_kept {f : Fields} {s t : State} (h : execAssert f s = .next t) : Kept s t := by
  refine runWave_kept (fun x => ?_) h
  repeat' (first | with_reducible assumption | exact Kept.refl _ | (intro _) | with_reducible apply assertBody_kept
                 | with_reducible apply foldl_kept' | simp only [Kept.upd_iff] | split | dsimp only)

theorem execTrapretResume_kept {f : Fields} {s t : State} (h : execTrapretResume f s = .next t) : Kept s t := by
  refine runWave_kept (fun x => ?_) h
  repeat' (first | with_reducible assumption | exact Kept.refl _ | (intro _) | with_reducible apply unlessRaised_kept
                 | with_reducible apply trapretBody_kept | with_reducible apply foldl_kept' | simp only [Kept.upd_iff]
                 | split | dsimp only)

theorem execTrapretRetry_kept {f : Fields} {s t : State} (h : execTrapretRetry f s = .next t) : Kept s t := by
  refine runWave_kept (fun x => ?_) h
  repeat' (first | with_reducible assumption | exact Kept.refl _ | (intro _) | with_reducible apply unlessRaised_kept
                 | with_reducible apply trapretBody_kept | with_reducible apply foldl_kept' | simp only [Kept.upd_iff]
                 | split | dsimp only)

theorem execTrapretSkip_kept {f : Fields} {s t : State} (h : execTrapretSkip f s = .next t) : Kept s t := by
  refine runWave_kept (fun x => ?_) h
  repeat' (first | with_reducible assumption | exact Kept.refl _ | (intro _) | with_reducible apply unlessRaised_kept
                 | with_reducible apply trapretBody_kept | with_reducible apply foldl_kept' | simp only [Kept.upd_iff]
                 | split | dsimp only)

theorem execResultWriteback_kept {a0 a1 a2} {s t : State} (h : execResultWriteback a0 a1 a2 s = .next t) : Kept s t := by
  cases h
  repeat' (first | with_reducible assumption | exact Kept.refl _ | (intro _) | with_reducible apply State.writeback_kept
                 | with_reducible apply foldl_kept' | simp only [Kept.upd_iff] | split | dsimp only)

theorem execL1FillArrival_kept {a0} {s t : State} (h : execL1FillArrival a0 s = .next t) : Kept s t := by
  cases h
  repeat' (first | with_reducible assumption | exact Kept.refl _ | (intro _) | with_reducible apply State.fillArrival_kept
                 | with_reducible apply foldl_kept' | simp only [Kept.upd_iff] | split | dsimp only)

theorem execHomeSliceWriteArrival_kept {a0} {s t : State} (h : execHomeSliceWriteArrival a0 s = .next t) : Kept s t := by
  cases h
  repeat' (first | with_reducible assumption | exact Kept.refl _ | (intro _) | with_reducible apply State.arriveIf_kept
                 | with_reducible apply foldl_kept' | simp only [Kept.upd_iff] | split | dsimp only)

theorem execHomeSliceReadArrival_kept {a0} {s t : State} (h : execHomeSliceReadArrival a0 s = .next t) : Kept s t := by
  cases h
  repeat' (first | with_reducible assumption | exact Kept.refl _ | (intro _) | with_reducible apply State.arriveIf_kept
                 | with_reducible apply foldl_kept' | simp only [Kept.upd_iff] | split | dsimp only)

theorem execHomeSliceAtomicArrival_kept {a0} {s t : State} (h : execHomeSliceAtomicArrival a0 s = .next t) : Kept s t := by
  cases h
  repeat' (first | with_reducible assumption | exact Kept.refl _ | (intro _) | with_reducible apply State.arriveIf_kept
                 | with_reducible apply foldl_kept' | simp only [Kept.upd_iff] | split | dsimp only)

theorem execGrantRequest_kept {a0} {s t : State} (h : execGrantRequest a0 s = .next t) : Kept s t := by
  cases h
  repeat' (first | with_reducible assumption | exact Kept.refl _ | (intro _) | with_reducible apply State.arriveIf_kept
                 | with_reducible apply foldl_kept' | simp only [Kept.upd_iff] | split | dsimp only)

theorem execGddr7ReadReturn_kept {a0} {s t : State} (h : execGddr7ReadReturn a0 s = .next t) : Kept s t := by
  cases h
  repeat' (first | with_reducible assumption | exact Kept.refl _ | (intro _) | with_reducible apply State.dramReturn_kept
                 | with_reducible apply foldl_kept' | simp only [Kept.upd_iff] | split | dsimp only)

theorem execStoreAck_kept {a0} {s t : State} (h : execStoreAck a0 s = .next t) : Kept s t := by
  cases h
  repeat' (first | with_reducible assumption | exact Kept.refl _ | (intro _) | with_reducible apply State.storeAck_kept
                 | with_reducible apply foldl_kept' | simp only [Kept.upd_iff] | split | dsimp only)

theorem execRecall_kept {a0} {s t : State} (h : execRecall a0 s = .next t) : Kept s t := by
  cases h
  repeat' (first | with_reducible assumption | exact Kept.refl _ | (intro _) | with_reducible apply State.recallArrival_kept
                 | with_reducible apply foldl_kept' | simp only [Kept.upd_iff] | split | dsimp only)

theorem execReleaseNotice_kept {a0} {s t : State} (h : execReleaseNotice a0 s = .next t) : Kept s t := by
  cases h
  repeat' (first | with_reducible assumption | exact Kept.refl _ | (intro _)
                 | with_reducible apply State.releaseArrival_kept | with_reducible apply foldl_kept'
                 | simp only [Kept.upd_iff] | split | dsimp only)

theorem execGrant_kept {a0} {s t : State} (h : execGrant a0 s = .next t) : Kept s t := by
  cases h
  repeat' (first | with_reducible assumption | exact Kept.refl _ | (intro _) | with_reducible apply State.grantArrival_kept
                 | with_reducible apply foldl_kept' | simp only [Kept.upd_iff] | split | dsimp only)

theorem execWalkComplete_kept {a0 a1 a2} {s t : State} (h : execWalkComplete a0 a1 a2 s = .next t) : Kept s t := by
  cases h
  repeat' (first | with_reducible assumption | exact Kept.refl _ | (intro _) | with_reducible apply State.walkComplete_kept
                 | with_reducible apply foldl_kept' | simp only [Kept.upd_iff] | split | dsimp only)

theorem execMereageRelease_kept {a0 a1 a2} {s t : State} (h : execMereageRelease a0 a1 a2 s = .next t) : Kept s t := by
  cases h
  repeat' (first | with_reducible assumption | exact Kept.refl _ | (intro _)
                 | with_reducible apply State.mereageRelease_kept | with_reducible apply foldl_kept'
                 | simp only [Kept.upd_iff] | split | dsimp only)

theorem execPauseExpire_kept {a0 a1} {s t : State} (h : execPauseExpire a0 a1 s = .next t) : Kept s t := by
  cases h
  repeat' (first | with_reducible assumption | exact Kept.refl _ | (intro _) | with_reducible apply State.pauseExpire_kept
                 | with_reducible apply foldl_kept' | simp only [Kept.upd_iff] | split | dsimp only)

theorem execBarrierUnreachable_kept {a0} {s t : State} (h : execBarrierUnreachable a0 s = .next t) : Kept s t := by
  cases h
  repeat' (first | with_reducible assumption | exact Kept.refl _ | (intro _)
                 | with_reducible apply State.barrierUnreachable_kept | with_reducible apply foldl_kept'
                 | simp only [Kept.upd_iff] | split | dsimp only)

theorem execTaskGather_kept {a0} {s t : State} (h : execTaskGather a0 s = .next t) : Kept s t := by
  cases h
  repeat' (first | with_reducible assumption | exact Kept.refl _ | (intro _) | with_reducible apply State.gather_kept
                 | with_reducible apply foldl_kept' | simp only [Kept.upd_iff] | split | dsimp only)

theorem execFillComplete_kept {a0} {s t : State} (h : execFillComplete a0 s = .next t) : Kept s t := by
  cases h
  repeat' (first | with_reducible assumption | exact Kept.refl _ | (intro _) | with_reducible apply State.fillComplete_kept
                 | with_reducible apply foldl_kept' | simp only [Kept.upd_iff] | split | dsimp only)

theorem execEvictionComplete_kept {a0} {s t : State} (h : execEvictionComplete a0 s = .next t) : Kept s t := by
  cases h
  repeat' (first | with_reducible assumption | exact Kept.refl _ | (intro _)
                 | with_reducible apply State.evictionComplete_kept | with_reducible apply foldl_kept'
                 | simp only [Kept.upd_iff] | split | dsimp only)

theorem execLeaseExpiry_kept {a0} {s t : State} (h : execLeaseExpiry a0 s = .next t) : Kept s t := by
  cases h
  repeat' (first | with_reducible assumption | exact Kept.refl _ | (intro _) | with_reducible apply State.leaseExpiry_kept
                 | with_reducible apply foldl_kept' | simp only [Kept.upd_iff] | split | dsimp only)

theorem execCourierCommandStart_kept {a0} {s t : State} (h : execCourierCommandStart a0 s = .next t) : Kept s t := by
  cases h
  repeat' (first | with_reducible assumption | exact Kept.refl _ | (intro _) | with_reducible apply State.courierStart_kept
                 | with_reducible apply foldl_kept' | simp only [Kept.upd_iff] | split | dsimp only)

theorem execSlotBytesLanded_kept {a0 a1} {s t : State} (h : execSlotBytesLanded a0 a1 s = .next t) : Kept s t := by
  cases h
  repeat' (first | with_reducible assumption | exact Kept.refl _ | (intro _) | with_reducible apply State.slotLanded_kept
                 | with_reducible apply foldl_kept' | simp only [Kept.upd_iff] | split | dsimp only)

theorem execCourierCommandComplete_kept {a0} {s t : State} (h : execCourierCommandComplete a0 s = .next t) : Kept s t := by
  cases h
  repeat' (first | with_reducible assumption | exact Kept.refl _ | (intro _)
                 | with_reducible apply State.courierComplete_kept | with_reducible apply foldl_kept'
                 | simp only [Kept.upd_iff] | split | dsimp only)

theorem execCourierCommandFault_kept {a0} {s t : State} (h : execCourierCommandFault a0 s = .next t) : Kept s t := by
  cases h
  repeat' (first | with_reducible assumption | exact Kept.refl _ | (intro _) | with_reducible apply State.courierFaults_kept
                 | with_reducible apply foldl_kept' | simp only [Kept.upd_iff] | split | dsimp only)

theorem execMatrixCommandStart_kept {a0} {s t : State} (h : execMatrixCommandStart a0 s = .next t) : Kept s t := by
  cases h
  repeat' (first | with_reducible assumption | exact Kept.refl _ | (intro _) | with_reducible apply State.matrixStart_kept
                 | with_reducible apply foldl_kept' | simp only [Kept.upd_iff] | split | dsimp only)

theorem execMatrixCommandComplete_kept {a0} {s t : State} (h : execMatrixCommandComplete a0 s = .next t) : Kept s t := by
  cases h
  repeat' (first | with_reducible assumption | exact Kept.refl _ | (intro _)
                 | with_reducible apply State.matrixComplete_kept | with_reducible apply foldl_kept'
                 | simp only [Kept.upd_iff] | split | dsimp only)

theorem execMatrixCommandFault_kept {a0} {s t : State} (h : execMatrixCommandFault a0 s = .next t) : Kept s t := by
  cases h
  repeat' (first | with_reducible assumption | exact Kept.refl _ | (intro _) | with_reducible apply State.matrixFault_kept
                 | with_reducible apply foldl_kept' | simp only [Kept.upd_iff] | split | dsimp only)

theorem execAssistComplete_kept {a0} {s t : State} (h : execAssistComplete a0 s = .next t) : Kept s t := by
  cases h
  repeat' (first | with_reducible assumption | exact Kept.refl _ | (intro _)
                 | with_reducible apply State.assistComplete_kept | with_reducible apply foldl_kept'
                 | simp only [Kept.upd_iff] | split | dsimp only)

theorem execTeamDispatch_kept {a0} {s t : State} (h : execTeamDispatch a0 s = .next t) : Kept s t := by
  cases h
  repeat' (first | with_reducible assumption | exact Kept.refl _ | (intro _) | with_reducible apply State.teamDispatch_kept
                 | with_reducible apply foldl_kept' | simp only [Kept.upd_iff] | split | dsimp only)

theorem execSwapOut_kept {a0} {s t : State} (h : execSwapOut a0 s = .next t) : Kept s t := by
  cases h
  repeat' (first | with_reducible assumption | exact Kept.refl _ | (intro _) | with_reducible apply State.swapOut_kept
                 | with_reducible apply foldl_kept' | simp only [Kept.upd_iff] | split | dsimp only)

theorem execSwapIn_kept {a0} {s t : State} (h : execSwapIn a0 s = .next t) : Kept s t := by
  cases h
  repeat' (first | with_reducible assumption | exact Kept.refl _ | (intro _) | with_reducible apply State.swapIn_kept
                 | with_reducible apply foldl_kept' | simp only [Kept.upd_iff] | split | dsimp only)

theorem execTeamMigration_kept {a0 a1} {s t : State} (h : execTeamMigration a0 a1 s = .next t) : Kept s t := by
  cases h
  repeat' (first | with_reducible assumption | exact Kept.refl _ | (intro _) | with_reducible apply State.migrate_kept
                 | with_reducible apply foldl_kept' | simp only [Kept.upd_iff] | split | dsimp only)

theorem execLaunchAccept_kept {a0} {s t : State} (h : execLaunchAccept a0 s = .next t) : Kept s t := by
  cases h
  repeat' (first | with_reducible assumption | exact Kept.refl _ | (intro _) | with_reducible apply State.launchAccept_kept
                 | with_reducible apply foldl_kept' | simp only [Kept.upd_iff] | split | dsimp only)

theorem execConstantCopy_kept {a0} {s t : State} (h : execConstantCopy a0 s = .next t) : Kept s t := by
  cases h
  repeat' (first | with_reducible assumption | exact Kept.refl _ | (intro _) | with_reducible apply State.constantCopy_kept
                 | with_reducible apply foldl_kept' | simp only [Kept.upd_iff] | split | dsimp only)

theorem execDlrDrain_kept {a0} {s t : State} (h : execDlrDrain a0 s = .next t) : Kept s t := by
  cases h
  repeat' (first | with_reducible assumption | exact Kept.refl _ | (intro _) | with_reducible apply State.dlrDrain_kept
                 | with_reducible apply foldl_kept' | simp only [Kept.upd_iff] | split | dsimp only)

theorem execStagingRetry_kept {a0 a1} {s t : State} (h : execStagingRetry a0 a1 s = .next t) : Kept s t := by
  cases h
  repeat' (first | with_reducible assumption | exact Kept.refl _ | (intro _) | with_reducible apply State.stagingRetry_kept
                 | with_reducible apply foldl_kept' | simp only [Kept.upd_iff] | split | dsimp only)

theorem execGridComplete_kept {a0} {s t : State} (h : execGridComplete a0 s = .next t) : Kept s t := by
  cases h
  repeat' (first | with_reducible assumption | exact Kept.refl _ | (intro _) | with_reducible apply State.gridComplete_kept
                 | with_reducible apply foldl_kept' | simp only [Kept.upd_iff] | split | dsimp only)

theorem execReportDelivery_kept {a0} {s t : State} (h : execReportDelivery a0 s = .next t) : Kept s t := by
  cases h
  repeat' (first | with_reducible assumption | exact Kept.refl _ | (intro _)
                 | with_reducible apply State.reportDelivery_kept | with_reducible apply foldl_kept'
                 | simp only [Kept.upd_iff] | split | dsimp only)

theorem execHandlerOverrun_kept {a0 a1} {s t : State} (h : execHandlerOverrun a0 a1 s = .next t) : Kept s t := by
  cases h
  repeat' (first | with_reducible assumption | exact Kept.refl _ | (intro _)
                 | with_reducible apply State.handlerOverrun_kept | with_reducible apply foldl_kept'
                 | simp only [Kept.upd_iff] | split | dsimp only)

theorem execPreemptReset_kept {a0} {s t : State} (h : execPreemptReset a0 s = .next t) : Kept s t := by
  cases h
  repeat' (first | with_reducible assumption | exact Kept.refl _ | (intro _) | with_reducible apply State.preemptReset_kept
                 | with_reducible apply foldl_kept' | simp only [Kept.upd_iff] | split | dsimp only)

theorem execPreemptComplete_kept {a0} {s t : State} (h : execPreemptComplete a0 s = .next t) : Kept s t := by
  cases h
  repeat' (first | with_reducible assumption | exact Kept.refl _ | (intro _)
                 | with_reducible apply State.preemptComplete_kept | with_reducible apply foldl_kept'
                 | simp only [Kept.upd_iff] | split | dsimp only)

theorem execUncorrectable_kept {a0} {s t : State} (h : execUncorrectable a0 s = .next t) : Kept s t := by
  cases h
  repeat' (first | with_reducible assumption | exact Kept.refl _ | (intro _) | with_reducible apply State.uncorrectable_kept
                 | with_reducible apply foldl_kept' | simp only [Kept.upd_iff] | split | dsimp only)

theorem execContainmentComplete_kept {a0} {s t : State} (h : execContainmentComplete a0 s = .next t) : Kept s t := by
  cases h
  repeat' (first | with_reducible assumption | exact Kept.refl _ | (intro _)
                 | with_reducible apply State.containmentComplete_kept | with_reducible apply foldl_kept'
                 | simp only [Kept.upd_iff] | split | dsimp only)

theorem execRemoteAck_kept {a0} {s t : State} (h : execRemoteAck a0 s = .next t) : Kept s t := by
  cases h
  repeat' (first | with_reducible assumption | exact Kept.refl _ | (intro _) | with_reducible apply State.remoteAck_kept
                 | with_reducible apply foldl_kept' | simp only [Kept.upd_iff] | split | dsimp only)

theorem execFabricNack_kept {a0 a1} {s t : State} (h : execFabricNack a0 a1 s = .next t) : Kept s t := by
  cases h
  repeat' (first | with_reducible assumption | exact Kept.refl _ | (intro _) | with_reducible apply State.fabricNack_kept
                 | with_reducible apply foldl_kept' | simp only [Kept.upd_iff] | split | dsimp only)

theorem execRemoteStoreArrival_kept {a0 a1 a2} {s t : State} (h : execRemoteStoreArrival a0 a1 a2 s = .next t) : Kept s t := by
  cases h
  repeat' (first | with_reducible assumption | exact Kept.refl _ | (intro _) | with_reducible apply State.remoteWrite_kept
                 | with_reducible apply foldl_kept' | simp only [Kept.upd_iff] | split | dsimp only)

theorem execWbsendArrival_kept {a0 a1 a2} {s t : State} (h : execWbsendArrival a0 a1 a2 s = .next t) : Kept s t := by
  cases h
  repeat' (first | with_reducible assumption | exact Kept.refl _ | (intro _) | with_reducible apply State.remoteWrite_kept
                 | with_reducible apply foldl_kept' | simp only [Kept.upd_iff] | split | dsimp only)

theorem execRsigArrival_kept {a0 a1 a2} {s t : State} (h : execRsigArrival a0 a1 a2 s = .next t) : Kept s t := by
  cases h
  repeat' (first | with_reducible assumption | exact Kept.refl _ | (intro _) | with_reducible apply State.rsigArrival_kept
                 | with_reducible apply foldl_kept' | simp only [Kept.upd_iff] | split | dsimp only)

theorem execAmsgArrival_kept {a0 a1 a2 a3} {s t : State} (h : execAmsgArrival a0 a1 a2 a3 s = .next t) : Kept s t := by
  cases h
  repeat' (first | with_reducible assumption | exact Kept.refl _ | (intro _) | with_reducible apply State.amsgArrival_kept
                 | with_reducible apply foldl_kept' | simp only [Kept.upd_iff] | split | dsimp only)

theorem execPacketForward_kept {a0 a1} {s t : State} (h : execPacketForward a0 a1 s = .next t) : Kept s t := by
  cases h
  repeat' (first | with_reducible assumption | exact Kept.refl _ | (intro _) | with_reducible apply State.packetForward_kept
                 | with_reducible apply foldl_kept' | simp only [Kept.upd_iff] | split | dsimp only)

theorem execPacketAgeTick_kept {a0} {s t : State} (h : execPacketAgeTick a0 s = .next t) : Kept s t := by
  cases h
  repeat' (first | with_reducible assumption | exact Kept.refl _ | (intro _) | with_reducible apply State.packetAgeTick_kept
                 | with_reducible apply foldl_kept' | simp only [Kept.upd_iff] | split | dsimp only)

theorem execHostUeWrite_kept {a0 a1 a2} {s t : State} (h : execHostUeWrite a0 a1 a2 s = .next t) : Kept s t := by
  cases h
  repeat' (first | with_reducible assumption | exact Kept.refl _ | (intro _) | with_reducible apply State.ueWrite_kept
                 | with_reducible apply foldl_kept' | simp only [Kept.upd_iff] | split | dsimp only)

theorem execHostUeRead_kept {a0 a1 a2} {s t : State} (h : execHostUeRead a0 a1 a2 s = .next t) : Kept s t := by
  cases h
  repeat' (first | with_reducible assumption | exact Kept.refl _ | (intro _) | with_reducible apply State.ueRead_kept
                 | with_reducible apply foldl_kept' | simp only [Kept.upd_iff] | split | dsimp only)

theorem execHostLaunch_kept {a0 a1} {s t : State} (h : execHostLaunch a0 a1 s = .next t) : Kept s t := by
  cases h
  repeat' (first | with_reducible assumption | exact Kept.refl _ | (intro _) | with_reducible apply State.hostLaunch_kept
                 | with_reducible apply foldl_kept' | simp only [Kept.upd_iff] | split | dsimp only)

theorem execContextLoad_kept {a0 a1} {s t : State} (h : execContextLoad a0 a1 s = .next t) : Kept s t := by
  cases h
  repeat' (first | with_reducible assumption | exact Kept.refl _ | (intro _) | with_reducible apply State.contextLoad_kept
                 | with_reducible apply foldl_kept' | simp only [Kept.upd_iff] | split | dsimp only)

theorem execContextUnload_kept {a0 a1} {s t : State} (h : execContextUnload a0 a1 s = .next t) : Kept s t := by
  cases h
  repeat' (first | with_reducible assumption | exact Kept.refl _ | (intro _) | with_reducible apply State.contextUnload_kept
                 | with_reducible apply foldl_kept' | simp only [Kept.upd_iff] | split | dsimp only)

theorem execContextResume_kept {a0 a1} {s t : State} (h : execContextResume a0 a1 s = .next t) : Kept s t := by
  cases h
  repeat' (first | with_reducible assumption | exact Kept.refl _ | (intro _) | with_reducible apply State.contextResume_kept
                 | with_reducible apply foldl_kept' | simp only [Kept.upd_iff] | split | dsimp only)

theorem execContextKill_kept {a0 a1} {s t : State} (h : execContextKill a0 a1 s = .next t) : Kept s t := by
  cases h
  repeat' (first | with_reducible assumption | exact Kept.refl _ | (intro _) | with_reducible apply State.contextKill_kept
                 | with_reducible apply foldl_kept' | simp only [Kept.upd_iff] | split | dsimp only)

theorem execPreempt_kept {a0 a1} {s t : State} (h : execPreempt a0 a1 s = .next t) : Kept s t := by
  cases h
  repeat' (first | with_reducible assumption | exact Kept.refl _ | (intro _) | with_reducible apply State.preempt_kept
                 | with_reducible apply foldl_kept' | simp only [Kept.upd_iff] | split | dsimp only)

theorem execFlip_kept {a0 a1} {s t : State} (h : execFlip a0 a1 s = .next t) : Kept s t := by
  cases h
  repeat' (first | with_reducible assumption | exact Kept.refl _ | (intro _) | with_reducible apply State.flip_kept
                 | with_reducible apply foldl_kept' | simp only [Kept.upd_iff] | split | dsimp only)

theorem execXlateInval_kept {a0 a1} {s t : State} (h : execXlateInval a0 a1 s = .next t) : Kept s t := by
  cases h
  repeat' (first | with_reducible assumption | exact Kept.refl _ | (intro _) | with_reducible apply State.xlateInval_kept
                 | with_reducible apply foldl_kept' | simp only [Kept.upd_iff] | split | dsimp only)

theorem execTelemetry_kept {a0 a1} {s t : State} (h : execTelemetry a0 a1 s = .next t) : Kept s t := by
  cases h
  repeat' (first | with_reducible assumption | exact Kept.refl _ | (intro _) | with_reducible apply State.telemetry_kept
                 | with_reducible apply foldl_kept' | simp only [Kept.upd_iff] | split | dsimp only)

theorem execPortMode_kept {a0 a1} {s t : State} (h : execPortMode a0 a1 s = .next t) : Kept s t := by
  cases h
  repeat' (first | with_reducible assumption | exact Kept.refl _ | (intro _) | with_reducible apply State.portMode_kept
                 | with_reducible apply foldl_kept' | simp only [Kept.upd_iff] | split | dsimp only)

theorem execAmLoad_kept {a0 a1} {s t : State} (h : execAmLoad a0 a1 s = .next t) : Kept s t := by
  cases h
  repeat' (first | with_reducible assumption | exact Kept.refl _ | (intro _) | with_reducible apply State.amLoad_kept
                 | with_reducible apply foldl_kept' | simp only [Kept.upd_iff] | split | dsimp only)

theorem execIdentity_kept {a0 a1} {s t : State} (h : execIdentity a0 a1 s = .next t) : Kept s t := by
  cases h
  repeat' (first | with_reducible assumption | exact Kept.refl _ | (intro _) | with_reducible apply State.identity_kept
                 | with_reducible apply foldl_kept' | simp only [Kept.upd_iff] | split | dsimp only)

theorem execUnknownCommand_kept {a0 a1 a2} {s t : State} (h : execUnknownCommand a0 a1 a2 s = .next t) : Kept s t := by
  cases h
  repeat' (first | with_reducible assumption | exact Kept.refl _ | (intro _)
                 | with_reducible apply State.unknownCommand_kept | with_reducible apply foldl_kept'
                 | simp only [Kept.upd_iff] | split | dsimp only)

theorem State.command_wf {s : State} {cmd h body} {act : CmdHdr → State → State}
    (ha : ∀ h u, Memory.wf u.mem = true → Memory.wf (act h u).mem = true) (hs : Memory.wf s.mem = true) :
    Memory.wf (s.command cmd h body act).mem = true := by
  have hh : ∀ p, Memory.wf (s.heard p).mem = true := fun p => (State.heard_kept (Kept.refl s)).mem hs
  unfold State.command
  repeat' (first | exact hs | exact ha _ _ (hh _) | exact (State.deny_kept (Kept.refl _)).mem (hh _) | split | dsimp only)

theorem State.reply_wf {s : State} {h cmd st b} (hs : Memory.wf s.mem = true) : Memory.wf (s.reply h cmd st b).mem = true :=
  (State.reply_kept (Kept.refl s)).mem hs
theorem State.deny_wf {s : State} {h cmd c} (hs : Memory.wf s.mem = true) : Memory.wf (s.deny h cmd c).mem = true :=
  (State.deny_kept (Kept.refl s)).mem hs
theorem State.restart_wf {s : State} {b} (hs : Memory.wf s.mem = true) : Memory.wf (s.restart b).mem = true := hs
theorem State.wipe_wf (s : State) : Memory.wf s.wipe.mem = true := rfl

theorem State.linkFailure_wf {s : State} {l} (hs : Memory.wf s.mem = true) : Memory.wf (s.linkFailure l).mem = true := by
  unfold State.linkFailure
  refine (foldl_kept' (Kept.refl _) fun u a h => State.dropPacket_kept h).mem ?_
  repeat' (first | exact hs | split)

theorem State.linkUp_wf {s : State} {l} (hs : Memory.wf s.mem = true) : Memory.wf (s.linkUp l).mem = true := by
  unfold State.linkUp
  split <;> exact hs

theorem State.pinBudgetCmd_wf {s : State} {h b} (hs : Memory.wf s.mem = true) : Memory.wf (s.pinBudgetCmd h b).mem = true := by
  unfold State.pinBudgetCmd
  refine State.command_wf (fun h u hu => ?_) hs
  repeat' (first | exact State.deny_wf hu | exact State.reply_wf hu | rfl | split | dsimp only)

theorem State.nocAvoidCmd_wf {s : State} {h b} (hs : Memory.wf s.mem = true) : Memory.wf (s.nocAvoidCmd h b).mem = true := by
  unfold State.nocAvoidCmd
  refine State.command_wf (fun h u hu => ?_) hs
  repeat' (first | exact State.deny_wf hu | exact State.reply_wf hu | rfl | split | dsimp only)

theorem State.setId_wf {s : State} {h b} (hs : Memory.wf s.mem = true) : Memory.wf (s.setId h b).mem = true := by
  unfold State.setId
  refine State.command_wf (fun h u hu => ?_) hs
  repeat' (first | exact State.deny_wf hu | exact State.reply_wf hu | rfl | split | dsimp only)

theorem State.attest_wf {s : State} {h b} (hs : Memory.wf s.mem = true) : Memory.wf (s.attest h b).mem = true := by
  unfold State.attest
  refine State.command_wf (fun h u hu => ?_) hs
  repeat' (first | exact State.deny_wf hu | exact State.reply_wf hu | rfl | split | dsimp only)

theorem State.lifecycleCmd_wf {s : State} {h b} (hs : Memory.wf s.mem = true) : Memory.wf (s.lifecycleCmd h b).mem = true := by
  unfold State.lifecycleCmd
  refine State.command_wf (fun h u hu => ?_) hs
  repeat' (first | exact State.deny_wf hu | exact State.reply_wf hu | rfl | split | dsimp only)

theorem State.hostReset_wf {s : State} {h b} (hs : Memory.wf s.mem = true) : Memory.wf (s.hostReset h b).mem = true := by
  unfold State.hostReset
  refine State.command_wf (fun h u hu => ?_) hs
  repeat' (first | exact State.deny_wf hu | exact State.reply_wf hu | rfl | split | dsimp only)

theorem State.powerGood_wf {s : State} (hs : Memory.wf s.mem = true) : Memory.wf s.powerGood.mem = true := by
  unfold State.powerGood
  split <;> exact hs

theorem State.bringUpStepDone_wf {s : State} {ok} (hs : Memory.wf s.mem = true) :
    Memory.wf (s.bringUpStepDone ok).mem = true := by
  unfold State.bringUpStepDone State.bootFirmware
  repeat' (first | exact hs | rfl | split | dsimp only)

theorem State.junctionOvertemp_wf {s : State} (hs : Memory.wf s.mem = true) : Memory.wf s.junctionOvertemp.mem = true :=
  (State.deviceError_kept (Kept.refl s)).mem hs

theorem execLinkFailure_wf {a0} {s t : State} (h : execLinkFailure a0 s = .next t) (hs : Memory.wf s.mem = true) :
    Memory.wf t.mem = true := by
  cases h
  exact State.linkFailure_wf hs

theorem execLinkUp_wf {a0} {s t : State} (h : execLinkUp a0 s = .next t) (hs : Memory.wf s.mem = true) :
    Memory.wf t.mem = true := by
  cases h
  exact State.linkUp_wf hs

theorem execPinBudget_wf {a0 a1} {s t : State} (h : execPinBudget a0 a1 s = .next t) (hs : Memory.wf s.mem = true) :
    Memory.wf t.mem = true := by
  cases h
  exact State.pinBudgetCmd_wf hs

theorem execNocAvoid_wf {a0 a1} {s t : State} (h : execNocAvoid a0 a1 s = .next t) (hs : Memory.wf s.mem = true) :
    Memory.wf t.mem = true := by
  cases h
  exact State.nocAvoidCmd_wf hs

theorem execSetId_wf {a0 a1} {s t : State} (h : execSetId a0 a1 s = .next t) (hs : Memory.wf s.mem = true) :
    Memory.wf t.mem = true := by
  cases h
  exact State.setId_wf hs

theorem execAttest_wf {a0 a1} {s t : State} (h : execAttest a0 a1 s = .next t) (hs : Memory.wf s.mem = true) :
    Memory.wf t.mem = true := by
  cases h
  exact State.attest_wf hs

theorem execLifecycle_wf {a0 a1} {s t : State} (h : execLifecycle a0 a1 s = .next t) (hs : Memory.wf s.mem = true) :
    Memory.wf t.mem = true := by
  cases h
  exact State.lifecycleCmd_wf hs

theorem execReset_wf {a0 a1} {s t : State} (h : execReset a0 a1 s = .next t) (hs : Memory.wf s.mem = true) :
    Memory.wf t.mem = true := by
  cases h
  exact State.hostReset_wf hs

theorem execPowerGood_wf {s t : State} (h : execPowerGood s = .next t) (hs : Memory.wf s.mem = true) :
    Memory.wf t.mem = true := by
  cases h
  exact State.powerGood_wf hs

theorem execBringUpStepDone_wf {a0} {s t : State} (h : execBringUpStepDone a0 s = .next t) (hs : Memory.wf s.mem = true) :
    Memory.wf t.mem = true := by
  cases h
  exact State.bringUpStepDone_wf hs

theorem execJunctionOvertemp_wf {s t : State} (h : execJunctionOvertemp s = .next t) (hs : Memory.wf s.mem = true) :
    Memory.wf t.mem = true := by
  cases h
  exact State.junctionOvertemp_wf hs

theorem execPowerThrottle_wf {on} {s t : State} (h : execPowerThrottle on s = .next t) (hs : Memory.wf s.mem = true) :
    Memory.wf t.mem = true := by
  cases h
  exact hs

theorem execInputVoltageFault_wf {s t : State} (h : execInputVoltageFault s = .next t) (hs : Memory.wf s.mem = true) :
    Memory.wf t.mem = true := by
  cases h
  exact hs

end Sys2Proof.Machine
end

