-- ==== Sys2Proof/Laws/PerInstr.lean ====
section
/-! SUPPORT. Per instruction: the decoder's choice of constructor (`build`) gives an instruction back from the opcode and the
fields that the encoder reads from it. -/

set_option Elab.async false

namespace Sys2Proof.Laws

open Sys2Proof

def Rebuilds.Statement (i : Instr) : Prop := ∀ op f, i.opFields = some (op, f) → trapretFnOk i = true → build op f = some i

theorem Rebuilds.of_none {i : Instr} (h : i.opFields = none) : Rebuilds.Statement i := fun _ _ h' _ => by simp [h] at h'

theorem Rebuilds.of_some {i : Instr} {op f} (h : i.opFields = some (op, f)) (hb : trapretFnOk i = true → build op f = some i) : Rebuilds.Statement i :=
  fun _ _ h' ht => by
    obtain ⟨rfl, rfl⟩ := Prod.mk.inj (Option.some.inj (h.symm.trans h'))
    exact hb ht

theorem Rebuilds.nop (f : Fields) : Rebuilds.Statement (.nop f) := Rebuilds.of_some rfl fun _ => rfl
theorem Rebuilds.bra (f : Fields) : Rebuilds.Statement (.bra f) := Rebuilds.of_some rfl fun _ => rfl
theorem Rebuilds.brx (f : Fields) : Rebuilds.Statement (.brx f) := Rebuilds.of_some rfl fun _ => rfl
theorem Rebuilds.call (f : Fields) : Rebuilds.Statement (.call f) := Rebuilds.of_some rfl fun _ => rfl
theorem Rebuilds.callx (f : Fields) : Rebuilds.Statement (.callx f) := Rebuilds.of_some rfl fun _ => rfl
theorem Rebuilds.ret (f : Fields) : Rebuilds.Statement (.ret f) := Rebuilds.of_some rfl fun _ => rfl
theorem Rebuilds.exit (f : Fields) : Rebuilds.Statement (.exit f) := Rebuilds.of_some rfl fun _ => rfl
theorem Rebuilds.reform (f : Fields) : Rebuilds.Statement (.reform f) := Rebuilds.of_some rfl fun _ => rfl
theorem Rebuilds.reconv (f : Fields) : Rebuilds.Statement (.reconv f) := Rebuilds.of_some rfl fun _ => rfl
theorem Rebuilds.yield (f : Fields) : Rebuilds.Statement (.yield f) := Rebuilds.of_some rfl fun _ => rfl
theorem Rebuilds.trap (f : Fields) : Rebuilds.Statement (.trap f) := Rebuilds.of_some rfl fun _ => rfl
theorem Rebuilds.trapretResume (f : Fields) : Rebuilds.Statement (.trapretResume f) :=
  Rebuilds.of_some rfl fun h => by
    simp only [trapretFnOk, beq_iff_eq] at h
    show (if f.fn = 0 then some (Instr.trapretResume f) else if f.fn = 1 then some (Instr.trapretRetry f)
      else if f.fn = 2 then some (Instr.trapretSkip f) else none) = _
    rw [h]; rfl
theorem Rebuilds.trapretRetry (f : Fields) : Rebuilds.Statement (.trapretRetry f) :=
  Rebuilds.of_some rfl fun h => by
    simp only [trapretFnOk, beq_iff_eq] at h
    show (if f.fn = 0 then some (Instr.trapretResume f) else if f.fn = 1 then some (Instr.trapretRetry f)
      else if f.fn = 2 then some (Instr.trapretSkip f) else none) = _
    rw [h]; rfl
theorem Rebuilds.trapretSkip (f : Fields) : Rebuilds.Statement (.trapretSkip f) :=
  Rebuilds.of_some rfl fun h => by
    simp only [trapretFnOk, beq_iff_eq] at h
    show (if f.fn = 0 then some (Instr.trapretResume f) else if f.fn = 1 then some (Instr.trapretRetry f)
      else if f.fn = 2 then some (Instr.trapretSkip f) else none) = _
    rw [h]; rfl
theorem Rebuilds.assert (f : Fields) : Rebuilds.Statement (.assert f) := Rebuilds.of_some rfl fun _ => rfl
theorem Rebuilds.pause (f : Fields) : Rebuilds.Statement (.pause f) := Rebuilds.of_some rfl fun _ => rfl
theorem Rebuilds.sreg (f : Fields) : Rebuilds.Statement (.sreg f) := Rebuilds.of_some rfl fun _ => rfl
theorem Rebuilds.swreg (f : Fields) : Rebuilds.Statement (.swreg f) := Rebuilds.of_some rfl fun _ => rfl
theorem Rebuilds.iadd (f : Fields) : Rebuilds.Statement (.iadd f) := Rebuilds.of_some rfl fun _ => rfl
theorem Rebuilds.isub (f : Fields) : Rebuilds.Statement (.isub f) := Rebuilds.of_some rfl fun _ => rfl
theorem Rebuilds.imul (f : Fields) : Rebuilds.Statement (.imul f) := Rebuilds.of_some rfl fun _ => rfl
theorem Rebuilds.imad (f : Fields) : Rebuilds.Statement (.imad f) := Rebuilds.of_some rfl fun _ => rfl
theorem Rebuilds.imulh (f : Fields) : Rebuilds.Statement (.imulh f) := Rebuilds.of_some rfl fun _ => rfl
theorem Rebuilds.imin (f : Fields) : Rebuilds.Statement (.imin f) := Rebuilds.of_some rfl fun _ => rfl
theorem Rebuilds.imax (f : Fields) : Rebuilds.Statement (.imax f) := Rebuilds.of_some rfl fun _ => rfl
theorem Rebuilds.iabs (f : Fields) : Rebuilds.Statement (.iabs f) := Rebuilds.of_some rfl fun _ => rfl
theorem Rebuilds.ineg (f : Fields) : Rebuilds.Statement (.ineg f) := Rebuilds.of_some rfl fun _ => rfl
theorem Rebuilds.isad (f : Fields) : Rebuilds.Statement (.isad f) := Rebuilds.of_some rfl fun _ => rfl
theorem Rebuilds.iadd3 (f : Fields) : Rebuilds.Statement (.iadd3 f) := Rebuilds.of_some rfl fun _ => rfl
theorem Rebuilds.lea (f : Fields) : Rebuilds.Statement (.lea f) := Rebuilds.of_some rfl fun _ => rfl
theorem Rebuilds.icmp (f : Fields) : Rebuilds.Statement (.icmp f) := Rebuilds.of_some rfl fun _ => rfl
theorem Rebuilds.isel (f : Fields) : Rebuilds.Statement (.isel f) := Rebuilds.of_some rfl fun _ => rfl
theorem Rebuilds.mov (f : Fields) : Rebuilds.Statement (.mov f) := Rebuilds.of_some rfl fun _ => rfl
theorem Rebuilds.movl (f : Fields) : Rebuilds.Statement (.movl f) := Rebuilds.of_some rfl fun _ => rfl
theorem Rebuilds.and (f : Fields) : Rebuilds.Statement (.and f) := Rebuilds.of_some rfl fun _ => rfl
theorem Rebuilds.or (f : Fields) : Rebuilds.Statement (.or f) := Rebuilds.of_some rfl fun _ => rfl
theorem Rebuilds.xor (f : Fields) : Rebuilds.Statement (.xor f) := Rebuilds.of_some rfl fun _ => rfl
theorem Rebuilds.not (f : Fields) : Rebuilds.Statement (.not f) := Rebuilds.of_some rfl fun _ => rfl
theorem Rebuilds.andn (f : Fields) : Rebuilds.Statement (.andn f) := Rebuilds.of_some rfl fun _ => rfl
theorem Rebuilds.lop3 (f : Fields) : Rebuilds.Statement (.lop3 f) := Rebuilds.of_some rfl fun _ => rfl
theorem Rebuilds.shl (f : Fields) : Rebuilds.Statement (.shl f) := Rebuilds.of_some rfl fun _ => rfl
theorem Rebuilds.shr (f : Fields) : Rebuilds.Statement (.shr f) := Rebuilds.of_some rfl fun _ => rfl
theorem Rebuilds.shra (f : Fields) : Rebuilds.Statement (.shra f) := Rebuilds.of_some rfl fun _ => rfl
theorem Rebuilds.rot (f : Fields) : Rebuilds.Statement (.rot f) := Rebuilds.of_some rfl fun _ => rfl
theorem Rebuilds.funnel (f : Fields) : Rebuilds.Statement (.funnel f) := Rebuilds.of_some rfl fun _ => rfl
theorem Rebuilds.bfe (f : Fields) : Rebuilds.Statement (.bfe f) := Rebuilds.of_some rfl fun _ => rfl
theorem Rebuilds.bfi (f : Fields) : Rebuilds.Statement (.bfi f) := Rebuilds.of_some rfl fun _ => rfl
theorem Rebuilds.popc (f : Fields) : Rebuilds.Statement (.popc f) := Rebuilds.of_some rfl fun _ => rfl
theorem Rebuilds.clz (f : Fields) : Rebuilds.Statement (.clz f) := Rebuilds.of_some rfl fun _ => rfl
theorem Rebuilds.brev (f : Fields) : Rebuilds.Statement (.brev f) := Rebuilds.of_some rfl fun _ => rfl
theorem Rebuilds.plop (f : Fields) : Rebuilds.Statement (.plop f) := Rebuilds.of_some rfl fun _ => rfl
theorem Rebuilds.pmov (f : Fields) : Rebuilds.Statement (.pmov f) := Rebuilds.of_some rfl fun _ => rfl
theorem Rebuilds.cvti (f : Fields) : Rebuilds.Statement (.cvti f) := Rebuilds.of_some rfl fun _ => rfl
theorem Rebuilds.idot4 (f : Fields) : Rebuilds.Statement (.idot4 f) := Rebuilds.of_some rfl fun _ => rfl
theorem Rebuilds.prmt (f : Fields) : Rebuilds.Statement (.prmt f) := Rebuilds.of_some rfl fun _ => rfl
theorem Rebuilds.shfl (f : Fields) : Rebuilds.Statement (.shfl f) := Rebuilds.of_some rfl fun _ => rfl
theorem Rebuilds.vote (f : Fields) : Rebuilds.Statement (.vote f) := Rebuilds.of_some rfl fun _ => rfl
theorem Rebuilds.ballot (f : Fields) : Rebuilds.Statement (.ballot f) := Rebuilds.of_some rfl fun _ => rfl
theorem Rebuilds.wreduce (f : Fields) : Rebuilds.Statement (.wreduce f) := Rebuilds.of_some rfl fun _ => rfl
theorem Rebuilds.wscan (f : Fields) : Rebuilds.Statement (.wscan f) := Rebuilds.of_some rfl fun _ => rfl
theorem Rebuilds.matchOp (f : Fields) : Rebuilds.Statement (.matchOp f) := Rebuilds.of_some rfl fun _ => rfl
theorem Rebuilds.elect (f : Fields) : Rebuilds.Statement (.elect f) := Rebuilds.of_some rfl fun _ => rfl
theorem Rebuilds.fadd (f : Fields) : Rebuilds.Statement (.fadd f) := Rebuilds.of_some rfl fun _ => rfl
theorem Rebuilds.fsub (f : Fields) : Rebuilds.Statement (.fsub f) := Rebuilds.of_some rfl fun _ => rfl
theorem Rebuilds.fmul (f : Fields) : Rebuilds.Statement (.fmul f) := Rebuilds.of_some rfl fun _ => rfl
theorem Rebuilds.fma (f : Fields) : Rebuilds.Statement (.fma f) := Rebuilds.of_some rfl fun _ => rfl
theorem Rebuilds.fmin (f : Fields) : Rebuilds.Statement (.fmin f) := Rebuilds.of_some rfl fun _ => rfl
theorem Rebuilds.fmax (f : Fields) : Rebuilds.Statement (.fmax f) := Rebuilds.of_some rfl fun _ => rfl
theorem Rebuilds.fcmp (f : Fields) : Rebuilds.Statement (.fcmp f) := Rebuilds.of_some rfl fun _ => rfl
theorem Rebuilds.fclass (f : Fields) : Rebuilds.Statement (.fclass f) := Rebuilds.of_some rfl fun _ => rfl
theorem Rebuilds.fscale (f : Fields) : Rebuilds.Statement (.fscale f) := Rebuilds.of_some rfl fun _ => rfl
theorem Rebuilds.frnd (f : Fields) : Rebuilds.Statement (.frnd f) := Rebuilds.of_some rfl fun _ => rfl
theorem Rebuilds.fsgn (f : Fields) : Rebuilds.Statement (.fsgn f) := Rebuilds.of_some rfl fun _ => rfl
theorem Rebuilds.hfma2 (f : Fields) : Rebuilds.Statement (.hfma2 f) := Rebuilds.of_some rfl fun _ => rfl
theorem Rebuilds.hadd2 (f : Fields) : Rebuilds.Statement (.hadd2 f) := Rebuilds.of_some rfl fun _ => rfl
theorem Rebuilds.hmul2 (f : Fields) : Rebuilds.Statement (.hmul2 f) := Rebuilds.of_some rfl fun _ => rfl
theorem Rebuilds.fdot2 (f : Fields) : Rebuilds.Statement (.fdot2 f) := Rebuilds.of_some rfl fun _ => rfl
theorem Rebuilds.fdot4 (f : Fields) : Rebuilds.Statement (.fdot4 f) := Rebuilds.of_some rfl fun _ => rfl
theorem Rebuilds.rcps (f : Fields) : Rebuilds.Statement (.rcps f) := Rebuilds.of_some rfl fun _ => rfl
theorem Rebuilds.rsqs (f : Fields) : Rebuilds.Statement (.rsqs f) := Rebuilds.of_some rfl fun _ => rfl
theorem Rebuilds.rcp (f : Fields) : Rebuilds.Statement (.rcp f) := Rebuilds.of_some rfl fun _ => rfl
theorem Rebuilds.rsq (f : Fields) : Rebuilds.Statement (.rsq f) := Rebuilds.of_some rfl fun _ => rfl
theorem Rebuilds.sqrt (f : Fields) : Rebuilds.Statement (.sqrt f) := Rebuilds.of_some rfl fun _ => rfl
theorem Rebuilds.exp2 (f : Fields) : Rebuilds.Statement (.exp2 f) := Rebuilds.of_some rfl fun _ => rfl
theorem Rebuilds.log2 (f : Fields) : Rebuilds.Statement (.log2 f) := Rebuilds.of_some rfl fun _ => rfl
theorem Rebuilds.sinp (f : Fields) : Rebuilds.Statement (.sinp f) := Rebuilds.of_some rfl fun _ => rfl
theorem Rebuilds.cosp (f : Fields) : Rebuilds.Statement (.cosp f) := Rebuilds.of_some rfl fun _ => rfl
theorem Rebuilds.tanh (f : Fields) : Rebuilds.Statement (.tanh f) := Rebuilds.of_some rfl fun _ => rfl
theorem Rebuilds.cvtf (f : Fields) : Rebuilds.Statement (.cvtf f) := Rebuilds.of_some rfl fun _ => rfl
theorem Rebuilds.cvtfi (f : Fields) : Rebuilds.Statement (.cvtfi f) := Rebuilds.of_some rfl fun _ => rfl
theorem Rebuilds.cvtif (f : Fields) : Rebuilds.Statement (.cvtif f) := Rebuilds.of_some rfl fun _ => rfl
theorem Rebuilds.pack (f : Fields) : Rebuilds.Statement (.pack f) := Rebuilds.of_some rfl fun _ => rfl
theorem Rebuilds.unpack (f : Fields) : Rebuilds.Statement (.unpack f) := Rebuilds.of_some rfl fun _ => rfl
theorem Rebuilds.cvttd (f : Fields) : Rebuilds.Statement (.cvttd f) := Rebuilds.of_some rfl fun _ => rfl
theorem Rebuilds.ld (f : Fields) : Rebuilds.Statement (.ld f) := Rebuilds.of_some rfl fun _ => rfl
theorem Rebuilds.st (f : Fields) : Rebuilds.Statement (.st f) := Rebuilds.of_some rfl fun _ => rfl
theorem Rebuilds.ldacq (f : Fields) : Rebuilds.Statement (.ldacq f) := Rebuilds.of_some rfl fun _ => rfl
theorem Rebuilds.strel (f : Fields) : Rebuilds.Statement (.strel f) := Rebuilds.of_some rfl fun _ => rfl
theorem Rebuilds.atom (f : Fields) : Rebuilds.Statement (.atom f) := Rebuilds.of_some rfl fun _ => rfl
theorem Rebuilds.atomc (f : Fields) : Rebuilds.Statement (.atomc f) := Rebuilds.of_some rfl fun _ => rfl
theorem Rebuilds.atomf (f : Fields) : Rebuilds.Statement (.atomf f) := Rebuilds.of_some rfl fun _ => rfl
theorem Rebuilds.red (f : Fields) : Rebuilds.Statement (.red f) := Rebuilds.of_some rfl fun _ => rfl
theorem Rebuilds.fence (f : Fields) : Rebuilds.Statement (.fence f) := Rebuilds.of_some rfl fun _ => rfl
theorem Rebuilds.fencer (f : Fields) : Rebuilds.Statement (.fencer f) := Rebuilds.of_some rfl fun _ => rfl
theorem Rebuilds.pref (f : Fields) : Rebuilds.Statement (.pref f) := Rebuilds.of_some rfl fun _ => rfl
theorem Rebuilds.pdecl (f : Fields) : Rebuilds.Statement (.pdecl f) := Rebuilds.of_some rfl fun _ => rfl
theorem Rebuilds.penter (f : Fields) : Rebuilds.Statement (.penter f) := Rebuilds.of_some rfl fun _ => rfl
theorem Rebuilds.pleave (f : Fields) : Rebuilds.Statement (.pleave f) := Rebuilds.of_some rfl fun _ => rfl
theorem Rebuilds.pfree (f : Fields) : Rebuilds.Statement (.pfree f) := Rebuilds.of_some rfl fun _ => rfl
theorem Rebuilds.pstat (f : Fields) : Rebuilds.Statement (.pstat f) := Rebuilds.of_some rfl fun _ => rfl
theorem Rebuilds.lease (f : Fields) : Rebuilds.Statement (.lease f) := Rebuilds.of_some rfl fun _ => rfl
theorem Rebuilds.unlease (f : Fields) : Rebuilds.Statement (.unlease f) := Rebuilds.of_some rfl fun _ => rfl
theorem Rebuilds.lstat (f : Fields) : Rebuilds.Statement (.lstat f) := Rebuilds.of_some rfl fun _ => rfl
theorem Rebuilds.cpy (f : Fields) : Rebuilds.Statement (.cpy f) := Rebuilds.of_some rfl fun _ => rfl
theorem Rebuilds.cpy2d (f : Fields) : Rebuilds.Statement (.cpy2d f) := Rebuilds.of_some rfl fun _ => rfl
theorem Rebuilds.cpytd (f : Fields) : Rebuilds.Statement (.cpytd f) := Rebuilds.of_some rfl fun _ => rfl
theorem Rebuilds.seal (f : Fields) : Rebuilds.Statement (.seal f) := Rebuilds.of_some rfl fun _ => rfl
theorem Rebuilds.waitb (f : Fields) : Rebuilds.Statement (.waitb f) := Rebuilds.of_some rfl fun _ => rfl
theorem Rebuilds.kvcommit (f : Fields) : Rebuilds.Statement (.kvcommit f) := Rebuilds.of_some rfl fun _ => rfl
theorem Rebuilds.slotinit (f : Fields) : Rebuilds.Statement (.slotinit f) := Rebuilds.of_some rfl fun _ => rfl
theorem Rebuilds.slotres (f : Fields) : Rebuilds.Statement (.slotres f) := Rebuilds.of_some rfl fun _ => rfl
theorem Rebuilds.slottake (f : Fields) : Rebuilds.Statement (.slottake f) := Rebuilds.of_some rfl fun _ => rfl
theorem Rebuilds.slotdone (f : Fields) : Rebuilds.Statement (.slotdone f) := Rebuilds.of_some rfl fun _ => rfl
theorem Rebuilds.slotpeek (f : Fields) : Rebuilds.Statement (.slotpeek f) := Rebuilds.of_some rfl fun _ => rfl
theorem Rebuilds.slotfill (f : Fields) : Rebuilds.Statement (.slotfill f) := Rebuilds.of_some rfl fun _ => rfl
theorem Rebuilds.gres (f : Fields) : Rebuilds.Statement (.gres f) := Rebuilds.of_some rfl fun _ => rfl
theorem Rebuilds.gclr (f : Fields) : Rebuilds.Statement (.gclr f) := Rebuilds.of_some rfl fun _ => rfl
theorem Rebuilds.embq (f : Fields) : Rebuilds.Statement (.embq f) := Rebuilds.of_some rfl fun _ => rfl
theorem Rebuilds.tdset (f : Fields) : Rebuilds.Statement (.tdset f) := Rebuilds.of_some rfl fun _ => rfl
theorem Rebuilds.tdget (f : Fields) : Rebuilds.Statement (.tdget f) := Rebuilds.of_some rfl fun _ => rfl
theorem Rebuilds.mloadw (f : Fields) : Rebuilds.Statement (.mloadw f) := Rebuilds.of_some rfl fun _ => rfl
theorem Rebuilds.mswap (f : Fields) : Rebuilds.Statement (.mswap f) := Rebuilds.of_some rfl fun _ => rfl
theorem Rebuilds.mstream (f : Fields) : Rebuilds.Statement (.mstream f) := Rebuilds.of_some rfl fun _ => rfl
theorem Rebuilds.mzero (f : Fields) : Rebuilds.Statement (.mzero f) := Rebuilds.of_some rfl fun _ => rfl
theorem Rebuilds.mstore (f : Fields) : Rebuilds.Statement (.mstore f) := Rebuilds.of_some rfl fun _ => rfl
theorem Rebuilds.mwait (f : Fields) : Rebuilds.Statement (.mwait f) := Rebuilds.of_some rfl fun _ => rfl
theorem Rebuilds.mmask (f : Fields) : Rebuilds.Statement (.mmask f) := Rebuilds.of_some rfl fun _ => rfl
theorem Rebuilds.mstat (f : Fields) : Rebuilds.Statement (.mstat f) := Rebuilds.of_some rfl fun _ => rfl
theorem Rebuilds.mxop (f : Fields) : Rebuilds.Statement (.mxop f) := Rebuilds.of_some rfl fun _ => rfl
theorem Rebuilds.mresume (f : Fields) : Rebuilds.Statement (.mresume f) := Rebuilds.of_some rfl fun _ => rfl
theorem Rebuilds.bar (f : Fields) : Rebuilds.Statement (.bar f) := Rebuilds.of_some rfl fun _ => rfl
theorem Rebuilds.bara (f : Fields) : Rebuilds.Statement (.bara f) := Rebuilds.of_some rfl fun _ => rfl
theorem Rebuilds.barw (f : Fields) : Rebuilds.Statement (.barw f) := Rebuilds.of_some rfl fun _ => rfl
theorem Rebuilds.evset (f : Fields) : Rebuilds.Statement (.evset f) := Rebuilds.of_some rfl fun _ => rfl
theorem Rebuilds.evclr (f : Fields) : Rebuilds.Statement (.evclr f) := Rebuilds.of_some rfl fun _ => rfl
theorem Rebuilds.evwait (f : Fields) : Rebuilds.Statement (.evwait f) := Rebuilds.of_some rfl fun _ => rfl
theorem Rebuilds.evread (f : Fields) : Rebuilds.Statement (.evread f) := Rebuilds.of_some rfl fun _ => rfl
theorem Rebuilds.taskpost (f : Fields) : Rebuilds.Statement (.taskpost f) := Rebuilds.of_some rfl fun _ => rfl
theorem Rebuilds.taskend (f : Fields) : Rebuilds.Statement (.taskend f) := Rebuilds.of_some rfl fun _ => rfl
theorem Rebuilds.sofput (f : Fields) : Rebuilds.Statement (.sofput f) := Rebuilds.of_some rfl fun _ => rfl
theorem Rebuilds.sofget (f : Fields) : Rebuilds.Statement (.sofget f) := Rebuilds.of_some rfl fun _ => rfl
theorem Rebuilds.stloop (f : Fields) : Rebuilds.Statement (.stloop f) := Rebuilds.of_some rfl fun _ => rfl
theorem Rebuilds.stget (f : Fields) : Rebuilds.Statement (.stget f) := Rebuilds.of_some rfl fun _ => rfl
theorem Rebuilds.stadv (f : Fields) : Rebuilds.Statement (.stadv f) := Rebuilds.of_some rfl fun _ => rfl
theorem Rebuilds.stjmp (f : Fields) : Rebuilds.Statement (.stjmp f) := Rebuilds.of_some rfl fun _ => rfl
theorem Rebuilds.waitl (f : Fields) : Rebuilds.Statement (.waitl f) := Rebuilds.of_some rfl fun _ => rfl
theorem Rebuilds.stend (f : Fields) : Rebuilds.Statement (.stend f) := Rebuilds.of_some rfl fun _ => rfl
theorem Rebuilds.stqry (f : Fields) : Rebuilds.Statement (.stqry f) := Rebuilds.of_some rfl fun _ => rfl
theorem Rebuilds.launch (f : Fields) : Rebuilds.Statement (.launch f) := Rebuilds.of_some rfl fun _ => rfl
theorem Rebuilds.launchdep (f : Fields) : Rebuilds.Statement (.launchdep f) := Rebuilds.of_some rfl fun _ => rfl
theorem Rebuilds.join (f : Fields) : Rebuilds.Statement (.join f) := Rebuilds.of_some rfl fun _ => rfl
theorem Rebuilds.reggrow (f : Fields) : Rebuilds.Statement (.reggrow f) := Rebuilds.of_some rfl fun _ => rfl
theorem Rebuilds.regshrk (f : Fields) : Rebuilds.Statement (.regshrk f) := Rebuilds.of_some rfl fun _ => rfl
theorem Rebuilds.wbsend (f : Fields) : Rebuilds.Statement (.wbsend f) := Rebuilds.of_some rfl fun _ => rfl
theorem Rebuilds.amsg (f : Fields) : Rebuilds.Statement (.amsg f) := Rebuilds.of_some rfl fun _ => rfl
theorem Rebuilds.rstore (f : Fields) : Rebuilds.Statement (.rstore f) := Rebuilds.of_some rfl fun _ => rfl
theorem Rebuilds.rsig (f : Fields) : Rebuilds.Statement (.rsig f) := Rebuilds.of_some rfl fun _ => rfl
theorem Rebuilds.wbchk (f : Fields) : Rebuilds.Statement (.wbchk f) := Rebuilds.of_some rfl fun _ => rfl
theorem Rebuilds.tmapq (f : Fields) : Rebuilds.Statement (.tmapq f) := Rebuilds.of_some rfl fun _ => rfl
theorem Rebuilds.resultWriteback : ∀ a b c, Rebuilds.Statement (.resultWriteback a b c) := fun _ _ _ => Rebuilds.of_none rfl
theorem Rebuilds.l1FillArrival : ∀ a, Rebuilds.Statement (.l1FillArrival a) := fun _ => Rebuilds.of_none rfl
theorem Rebuilds.homeSliceWriteArrival : ∀ a, Rebuilds.Statement (.homeSliceWriteArrival a) := fun _ => Rebuilds.of_none rfl
theorem Rebuilds.homeSliceReadArrival : ∀ a, Rebuilds.Statement (.homeSliceReadArrival a) := fun _ => Rebuilds.of_none rfl
theorem Rebuilds.homeSliceAtomicArrival : ∀ a, Rebuilds.Statement (.homeSliceAtomicArrival a) := fun _ => Rebuilds.of_none rfl
theorem Rebuilds.gddr7ReadReturn : ∀ a, Rebuilds.Statement (.gddr7ReadReturn a) := fun _ => Rebuilds.of_none rfl
theorem Rebuilds.storeAck : ∀ a, Rebuilds.Statement (.storeAck a) := fun _ => Rebuilds.of_none rfl
theorem Rebuilds.grantRequest : ∀ a, Rebuilds.Statement (.grantRequest a) := fun _ => Rebuilds.of_none rfl
theorem Rebuilds.recall : ∀ a, Rebuilds.Statement (.recall a) := fun _ => Rebuilds.of_none rfl
theorem Rebuilds.releaseNotice : ∀ a, Rebuilds.Statement (.releaseNotice a) := fun _ => Rebuilds.of_none rfl
theorem Rebuilds.grant : ∀ a, Rebuilds.Statement (.grant a) := fun _ => Rebuilds.of_none rfl
theorem Rebuilds.walkComplete : ∀ a b c, Rebuilds.Statement (.walkComplete a b c) := fun _ _ _ => Rebuilds.of_none rfl
theorem Rebuilds.mereageRelease : ∀ a b c, Rebuilds.Statement (.mereageRelease a b c) := fun _ _ _ => Rebuilds.of_none rfl
theorem Rebuilds.pauseExpire : ∀ a b, Rebuilds.Statement (.pauseExpire a b) := fun _ _ => Rebuilds.of_none rfl
theorem Rebuilds.barrierUnreachable : ∀ a, Rebuilds.Statement (.barrierUnreachable a) := fun _ => Rebuilds.of_none rfl
theorem Rebuilds.taskGather : ∀ a, Rebuilds.Statement (.taskGather a) := fun _ => Rebuilds.of_none rfl
theorem Rebuilds.fillComplete : ∀ a, Rebuilds.Statement (.fillComplete a) := fun _ => Rebuilds.of_none rfl
theorem Rebuilds.evictionComplete : ∀ a, Rebuilds.Statement (.evictionComplete a) := fun _ => Rebuilds.of_none rfl
theorem Rebuilds.leaseExpiry : ∀ a, Rebuilds.Statement (.leaseExpiry a) := fun _ => Rebuilds.of_none rfl
theorem Rebuilds.courierCommandStart : ∀ a, Rebuilds.Statement (.courierCommandStart a) := fun _ => Rebuilds.of_none rfl
theorem Rebuilds.slotBytesLanded : ∀ a b, Rebuilds.Statement (.slotBytesLanded a b) := fun _ _ => Rebuilds.of_none rfl
theorem Rebuilds.courierCommandComplete : ∀ a, Rebuilds.Statement (.courierCommandComplete a) := fun _ => Rebuilds.of_none rfl
theorem Rebuilds.courierCommandFault : ∀ a, Rebuilds.Statement (.courierCommandFault a) := fun _ => Rebuilds.of_none rfl
theorem Rebuilds.matrixCommandStart : ∀ a, Rebuilds.Statement (.matrixCommandStart a) := fun _ => Rebuilds.of_none rfl
theorem Rebuilds.matrixCommandComplete : ∀ a, Rebuilds.Statement (.matrixCommandComplete a) := fun _ => Rebuilds.of_none rfl
theorem Rebuilds.matrixCommandFault : ∀ a, Rebuilds.Statement (.matrixCommandFault a) := fun _ => Rebuilds.of_none rfl
theorem Rebuilds.assistComplete : ∀ a, Rebuilds.Statement (.assistComplete a) := fun _ => Rebuilds.of_none rfl
theorem Rebuilds.teamDispatch : ∀ a, Rebuilds.Statement (.teamDispatch a) := fun _ => Rebuilds.of_none rfl
theorem Rebuilds.swapOut : ∀ a, Rebuilds.Statement (.swapOut a) := fun _ => Rebuilds.of_none rfl
theorem Rebuilds.swapIn : ∀ a, Rebuilds.Statement (.swapIn a) := fun _ => Rebuilds.of_none rfl
theorem Rebuilds.teamMigration : ∀ a b, Rebuilds.Statement (.teamMigration a b) := fun _ _ => Rebuilds.of_none rfl
theorem Rebuilds.launchAccept : ∀ a, Rebuilds.Statement (.launchAccept a) := fun _ => Rebuilds.of_none rfl
theorem Rebuilds.constantCopy : ∀ a, Rebuilds.Statement (.constantCopy a) := fun _ => Rebuilds.of_none rfl
theorem Rebuilds.dlrDrain : ∀ a, Rebuilds.Statement (.dlrDrain a) := fun _ => Rebuilds.of_none rfl
theorem Rebuilds.stagingRetry : ∀ a b, Rebuilds.Statement (.stagingRetry a b) := fun _ _ => Rebuilds.of_none rfl
theorem Rebuilds.gridComplete : ∀ a, Rebuilds.Statement (.gridComplete a) := fun _ => Rebuilds.of_none rfl
theorem Rebuilds.reportDelivery : ∀ a, Rebuilds.Statement (.reportDelivery a) := fun _ => Rebuilds.of_none rfl
theorem Rebuilds.handlerOverrun : ∀ a b, Rebuilds.Statement (.handlerOverrun a b) := fun _ _ => Rebuilds.of_none rfl
theorem Rebuilds.preemptReset : ∀ a, Rebuilds.Statement (.preemptReset a) := fun _ => Rebuilds.of_none rfl
theorem Rebuilds.preemptComplete : ∀ a, Rebuilds.Statement (.preemptComplete a) := fun _ => Rebuilds.of_none rfl
theorem Rebuilds.uncorrectable : ∀ a, Rebuilds.Statement (.uncorrectable a) := fun _ => Rebuilds.of_none rfl
theorem Rebuilds.containmentComplete : ∀ a, Rebuilds.Statement (.containmentComplete a) := fun _ => Rebuilds.of_none rfl
theorem Rebuilds.remoteAck : ∀ a, Rebuilds.Statement (.remoteAck a) := fun _ => Rebuilds.of_none rfl
theorem Rebuilds.fabricNack : ∀ a b, Rebuilds.Statement (.fabricNack a b) := fun _ _ => Rebuilds.of_none rfl
theorem Rebuilds.remoteStoreArrival : ∀ a b c, Rebuilds.Statement (.remoteStoreArrival a b c) := fun _ _ _ => Rebuilds.of_none rfl
theorem Rebuilds.wbsendArrival : ∀ a b c, Rebuilds.Statement (.wbsendArrival a b c) := fun _ _ _ => Rebuilds.of_none rfl
theorem Rebuilds.rsigArrival : ∀ a b c, Rebuilds.Statement (.rsigArrival a b c) := fun _ _ _ => Rebuilds.of_none rfl
theorem Rebuilds.amsgArrival : ∀ a b c d, Rebuilds.Statement (.amsgArrival a b c d) := fun _ _ _ _ => Rebuilds.of_none rfl
theorem Rebuilds.packetForward : ∀ a b, Rebuilds.Statement (.packetForward a b) := fun _ _ => Rebuilds.of_none rfl
theorem Rebuilds.packetAgeTick : ∀ a, Rebuilds.Statement (.packetAgeTick a) := fun _ => Rebuilds.of_none rfl
theorem Rebuilds.linkFailure : ∀ a, Rebuilds.Statement (.linkFailure a) := fun _ => Rebuilds.of_none rfl
theorem Rebuilds.linkUp : ∀ a, Rebuilds.Statement (.linkUp a) := fun _ => Rebuilds.of_none rfl
theorem Rebuilds.hostUeWrite : ∀ a b c, Rebuilds.Statement (.hostUeWrite a b c) := fun _ _ _ => Rebuilds.of_none rfl
theorem Rebuilds.hostUeRead : ∀ a b c, Rebuilds.Statement (.hostUeRead a b c) := fun _ _ _ => Rebuilds.of_none rfl
theorem Rebuilds.hostLaunch : ∀ a b, Rebuilds.Statement (.hostLaunch a b) := fun _ _ => Rebuilds.of_none rfl
theorem Rebuilds.contextLoad : ∀ a b, Rebuilds.Statement (.contextLoad a b) := fun _ _ => Rebuilds.of_none rfl
theorem Rebuilds.contextUnload : ∀ a b, Rebuilds.Statement (.contextUnload a b) := fun _ _ => Rebuilds.of_none rfl
theorem Rebuilds.contextResume : ∀ a b, Rebuilds.Statement (.contextResume a b) := fun _ _ => Rebuilds.of_none rfl
theorem Rebuilds.contextKill : ∀ a b, Rebuilds.Statement (.contextKill a b) := fun _ _ => Rebuilds.of_none rfl
theorem Rebuilds.preempt : ∀ a b, Rebuilds.Statement (.preempt a b) := fun _ _ => Rebuilds.of_none rfl
theorem Rebuilds.flip : ∀ a b, Rebuilds.Statement (.flip a b) := fun _ _ => Rebuilds.of_none rfl
theorem Rebuilds.xlateInval : ∀ a b, Rebuilds.Statement (.xlateInval a b) := fun _ _ => Rebuilds.of_none rfl
theorem Rebuilds.pinBudget : ∀ a b, Rebuilds.Statement (.pinBudget a b) := fun _ _ => Rebuilds.of_none rfl
theorem Rebuilds.telemetry : ∀ a b, Rebuilds.Statement (.telemetry a b) := fun _ _ => Rebuilds.of_none rfl
theorem Rebuilds.portMode : ∀ a b, Rebuilds.Statement (.portMode a b) := fun _ _ => Rebuilds.of_none rfl
theorem Rebuilds.nocAvoid : ∀ a b, Rebuilds.Statement (.nocAvoid a b) := fun _ _ => Rebuilds.of_none rfl
theorem Rebuilds.amLoad : ∀ a b, Rebuilds.Statement (.amLoad a b) := fun _ _ => Rebuilds.of_none rfl
theorem Rebuilds.identity : ∀ a b, Rebuilds.Statement (.identity a b) := fun _ _ => Rebuilds.of_none rfl
theorem Rebuilds.setId : ∀ a b, Rebuilds.Statement (.setId a b) := fun _ _ => Rebuilds.of_none rfl
theorem Rebuilds.attest : ∀ a b, Rebuilds.Statement (.attest a b) := fun _ _ => Rebuilds.of_none rfl
theorem Rebuilds.lifecycle : ∀ a b, Rebuilds.Statement (.lifecycle a b) := fun _ _ => Rebuilds.of_none rfl
theorem Rebuilds.hostReset : ∀ a b, Rebuilds.Statement (.hostReset a b) := fun _ _ => Rebuilds.of_none rfl
theorem Rebuilds.unknownCommand : ∀ a b c, Rebuilds.Statement (.unknownCommand a b c) := fun _ _ _ => Rebuilds.of_none rfl
theorem Rebuilds.powerGood : Rebuilds.Statement .powerGood  := Rebuilds.of_none rfl
theorem Rebuilds.bringUpStepDone : ∀ a, Rebuilds.Statement (.bringUpStepDone a) := fun _ => Rebuilds.of_none rfl
theorem Rebuilds.powerThrottle : ∀ a, Rebuilds.Statement (.powerThrottle a) := fun _ => Rebuilds.of_none rfl
theorem Rebuilds.junctionOvertemp : Rebuilds.Statement .junctionOvertemp  := Rebuilds.of_none rfl
theorem Rebuilds.inputVoltageFault : Rebuilds.Statement .inputVoltageFault  := Rebuilds.of_none rfl

end Sys2Proof.Laws
end

