-- ==== Sys2Proof/Laws/Turn.lean ====
section
/-! SUPPORT. What a turn keeps, what fetching leaves alone, and that an instruction of the ISA always answers a next state
where the current wave can execute it. -/

set_option Elab.async false

namespace Sys2Proof.Machine

theorem State.fetchBlock_kept {s₀ s u : State} {ctx core pc d} (hk : Kept s₀ s) :
    s.fetchBlock ctx core pc = .ok d u → Kept s₀ u := by
  unfold State.fetchBlock
  intro h
  repeat' (first | contradiction | split at h | dsimp only at h)
  all_goals
    obtain ⟨-, rfl⟩ := BlockRead.ok.inj h
    first
    | exact State.fill_kept hk
    | exact State.cacheBlock_kept (State.fill_kept hk)

def Fetched.Keeps (s₀ : State) : Fetched → Prop
  | .instr _ _ u => Kept s₀ u
  | .trap _ _ _ u => Kept s₀ u
  | .pads _ u => Kept s₀ u
  | .poisoned _ => True

theorem State.fetch_kept {s₀ : State} {ctx core} : ∀ {fuel s pc}, Kept s₀ s → (s.fetch ctx core fuel pc).Keeps s₀
  | 0, s, pc, hk => hk
  | fuel + 1, s, pc, hk => by
    unfold State.fetch
    split
    · exact hk
    · trivial
    · next d u h =>
      have hu := State.fetchBlock_kept hk h
      dsimp only
      split
      · exact State.fetch_kept hu
      · split <;> exact hu

theorem State.takeFetched_kept {s₀ s : State} {w num x} (hx : Fetched.Keeps s₀ x) (hk : Kept s₀ s) :
    Kept s₀ (s.takeFetched w num x).1 := by
  unfold State.takeFetched
  split
  · exact State.standAt_kept hx
  · exact State.trapWave_kept (State.standAt_kept hx)
  · exact State.killPoisoned_kept hk
  · exact State.standAt_kept hx

theorem State.issueWave_kept {s₀ s : State} {wid} (hk : Kept s₀ s) : Kept s₀ (s.issueWave wid).1 := by
  unfold State.issueWave
  repeat' (first | with_reducible assumption | with_reducible apply State.handlerOverrun_kept | (with_reducible refine State.takeFetched_kept (State.fetch_kept ?_) ?_) | simp only [Kept.upd_iff] | split | dsimp only)

theorem State.act_kept {s₀ s : State} {a} (hk : Kept s₀ s) : Kept s₀ (s.act a).1 := by
  unfold State.act
  split
  · exact State.issueWave_kept hk
  · exact hk
  · exact State.dropTlb_kept hk
  · exact State.dropWalk_kept hk
  · exact State.dropIBlock_kept hk
  · exact State.acceptMsg_kept hk
  · exact State.endSlice_kept hk
  · exact State.fillMap_kept hk
  · exact State.dropMap_kept hk

/-- What the passing of cycles leaves canonical. -/
theorem State.passOnce_wf {s : State} {el} (hs : Memory.wf s.mem = true) : Memory.wf (s.passOnce el).mem = true := by
  unfold State.passOnce
  dsimp only
  split
  · exact hs
  · refine (State.preemptResets_kept (State.expirePassed_kept (State.releaseDue_kept (Kept.refl _)))).mem ?_
    exact (State.closeCycle_kept (Kept.refl s)).mem hs

theorem State.passMany_wf : ∀ {n : Nat} {s : State} {el}, Memory.wf s.mem = true → Memory.wf (s.passMany n el).mem = true
  | 0, _, _, hs => hs
  | n + 1, s, el, hs => by
    unfold State.passMany
    dsimp only
    split
    · exact State.passOnce_wf (State.passOnce_wf hs)
    · exact State.passMany_wf (State.passOnce_wf hs)

theorem State.pass_wf {s : State} {el} (hs : Memory.wf s.mem = true) : Memory.wf (s.pass el).mem = true :=
  State.passMany_wf hs

/-- Where no cycle passes, nothing happens. -/
theorem State.pass_nil (s : State) : s.pass [] = s := rfl

theorem State.takeTurn_wf {s : State} (hs : Memory.wf s.mem = true) : Memory.wf (s.takeTurn).1.mem = true := by
  unfold State.takeTurn
  split <;> exact State.pass_wf hs

/-- A turn keeps the memory canonical. -/
theorem State.turn_wf {s : State} (hs : Memory.wf s.mem = true) : Memory.wf (s.turn).1.mem = true := by
  have ht := State.takeTurn_wf hs
  unfold State.turn
  split
  · next h => rwa [h] at ht
  · next h =>
    rw [h] at ht
    dsimp only
    split
    · exact ht
    · exact (State.noteAll_kept (State.act_kept (Kept.refl _))).mem ht

/-- The waves, their teams, grids and contexts are as before. -/
structure SameWork (s u : State) : Prop where
  cur : u.cur = s.cur
  waves : u.waves = s.waves
  teams : u.teams = s.teams
  grids : u.grids = s.grids
  contexts : u.contexts = s.contexts

theorem State.fill_work {s₀ s : State} {u ctx va leaf} (h : SameWork s₀ s) : SameWork s₀ (s.fill u ctx va leaf) :=
  ⟨h.1, h.2, h.3, h.4, h.5⟩

theorem State.cacheBlock_work {s₀ s : State} {core addr d} (h : SameWork s₀ s) : SameWork s₀ (s.cacheBlock core addr d) :=
  ⟨h.1, h.2, h.3, h.4, h.5⟩

theorem State.fetchBlock_work {s₀ s u : State} {ctx core pc d} (hk : SameWork s₀ s) :
    s.fetchBlock ctx core pc = .ok d u → SameWork s₀ u := by
  unfold State.fetchBlock
  intro h
  repeat' (first | contradiction | split at h | dsimp only at h)
  all_goals
    obtain ⟨-, rfl⟩ := BlockRead.ok.inj h
    first
    | exact State.fill_work hk
    | exact State.cacheBlock_work (State.fill_work hk)


set_option maxRecDepth 100000 in
theorem build_opFields {op : Nat} {f : Fields} {i : Instr} (h : build op f = some i) : i.opFields = some (op, f) := by
  unfold build at h
  split at h
  all_goals first
    | (obtain rfl := Option.some.inj h; rfl)
    | contradiction
    | (repeat' (split at h)
       all_goals first
         | (obtain rfl := Option.some.inj h; rfl)
         | contradiction)

theorem decodeAt_isa {off w : Nat} {i : Instr} {n : Nat} (h : decodeAt off w = .ok (i, n)) : isaInstr i = true := by
  unfold decodeAt at h
  dsimp only at h
  repeat' (first | contradiction | split at h)
  next hb =>
    obtain ⟨rfl, -⟩ := Prod.mk.inj (Except.ok.inj h)
    unfold isaInstr
    rw [build_opFields hb]; rfl

theorem State.fetch_work {s₀ : State} {ctx core} : ∀ {fuel s pc q i u}, SameWork s₀ s →
    s.fetch ctx core fuel pc = .instr q i u → SameWork s₀ u ∧ isaInstr i = true
  | 0, s, pc, q, i, u, hk, h => by simp [State.fetch] at h
  | fuel + 1, s, pc, q, i, u, hk, h => by
    unfold State.fetch at h
    split at h
    · contradiction
    · contradiction
    · next d v hv =>
      have hw := State.fetchBlock_work hk hv
      dsimp only at h
      split at h
      · exact State.fetch_work hw h
      · split at h
        · next j n hj =>
          obtain ⟨-, rfl, rfl⟩ := Fetched.instr.inj h
          refine ⟨hw, ?_⟩
          exact decodeAt_isa hj
        · contradiction

theorem runWave_answers {op f s} {body : Issue → State → State × Out} (h : (s.issue? op f).isSome = true) :
    ∃ t, runWave op f body s = .next t := by
  obtain ⟨x, hx⟩ := Option.isSome_iff_exists.mp h
  unfold runWave
  rw [hx]
  dsimp only
  split <;> exact ⟨_, rfl⟩


theorem find_updWhere {α : Type} {p q : α → Bool} {f : α → α} (hp : ∀ a, q (f a) = q a) (l : List α) :
    (updWhere p f l).find? q = (l.find? q).map fun a => if p a then f a else a := by
  induction l with
  | nil => rfl
  | cons a t ih =>
    simp only [updWhere, List.map_cons, List.find?_cons] at ih ⊢
    have : q (if p a = true then f a else a) = q a := by split <;> simp [hp]
    rw [this]
    split
    · rfl
    · exact ih

theorem State.standAt_issue {s : State} {w : Wave} {pc} {op f} {t : Team} {g : Grid} {c : Context} (hw : s.wave? s.cur = some w) (ht : s.team? w.uid = some t)
    (hg : s.grid? t.gid = some g) (hc : s.ctx? g.ctx = some c) (ha : t.active w ≠ []) :
    ((s.standAt w pc).issue? op f).isSome = true := by
  have hw' : (s.standAt w pc).wave? (s.standAt w pc).cur = some w := hw
  have ht' : (s.standAt w pc).team? w.uid = some { t with threads := updWhere (fun th => w.tids.contains th.tid) (fun th => { th with pc := pc }) t.threads } := by
    unfold State.standAt State.updThreads State.updTeam State.team?
    dsimp only
    rw [find_updWhere (by intro a; rfl)]
    unfold State.team? at ht
    rw [ht]
    have : t.uid = w.uid := by simpa using List.find?_some ht
    simp [this]
  have hg' : (s.standAt w pc).grid? t.gid = some g := hg
  have hc' : (s.standAt w pc).ctx? g.ctx = some c := hc
  unfold State.issue?
  rw [hw']
  simp only [Option.bind_some]
  rw [ht']
  simp only [Option.bind_some]
  rw [hg']
  simp only [Option.bind_some]
  rw [hc']
  simp only [Option.bind_some]
  have : Team.active { t with threads := updWhere (fun th => w.tids.contains th.tid) (fun th => { th with pc := pc }) t.threads } w ≠ [] := by
    intro h
    apply ha
    unfold Team.active Team.thread? at h ⊢
    simp only [List.filterMap_eq_nil_iff] at h ⊢
    intro l hl
    have := h l hl
    rw [find_updWhere (by intro a; rfl)] at this
    simpa using this
  split
  · contradiction
  · rfl

theorem ctxOf_eq {s : State} {t : Team} {g : Grid} (hg : s.grid? t.gid = some g) : s.ctxOf t = g.ctx := by
  simp [State.ctxOf, hg]


/-- Noting what happens in a cycle changes the marks alone. -/
theorem State.noteAll_marks (s : State) (ks : List Mark) : ∃ m, s.noteAll ks = { s with marks := m } := ⟨_, rfl⟩

/-- The marks of a cycle do not enter into the issue of an instruction. -/
theorem State.noteAll_issue {s : State} {ks op f} (h : (s.issue? op f).isSome = true) : ((s.noteAll ks).issue? op f).isSome = true := by
  obtain ⟨m, hm⟩ := s.noteAll_marks ks
  rw [hm]
  unfold State.issue? at h ⊢
  simp only [Option.isSome_iff_exists, Option.bind_eq_some_iff] at h ⊢
  obtain ⟨x, w, hw, t, ht, g, hg, c, hc, h⟩ := h
  split at h
  · contradiction
  · next ha => exact ⟨_, w, hw, t, ht, g, hg, c, hc, by rw [ha]⟩

/-! ## Running an instruction that passes its checks -/

theorem Issue.finish_goOn {x : Issue} {r : State × Out} (h : x.wave.waiting = false) : x.finish r = x.goOn r := by
  simp [Issue.finish, h]

theorem runWave_runs {op f s x} {body : Issue → State → State × Out} (h : s.Runs op f x) :
    runWave op f body s = .next (x.goOn (body x s)) := by
  obtain ⟨h1, h2, h3⟩ := h
  simp [runWave, h1, h2, Issue.finish_goOn h3]

theorem Issue.goOn_go {x : Issue} {s : State} : x.goOn (s, .go) = x.advance [] s := rfl
theorem Issue.goOn_branch {x : Issue} {s : State} {next} : x.goOn (s, .branch next) = x.advance next s := rfl
theorem Issue.goOn_trap {x : Issue} {s : State} {c infos} :
    x.goOn (s, .trap c infos) = s.trapWave x.wave.wid x.pc c infos := rfl
theorem Issue.goOn_handled {x : Issue} {s : State} : x.goOn (s, .handled) = s := rfl

end Sys2Proof.Machine
end

