-- ==== Sys2Proof/Laws/Runs.lean ====
section
/-! SUPPORT. An instruction that executes: what its issue holds, and the bodies that check, release and report first, where
nothing stands in their way. -/

set_option Elab.async false

namespace Sys2Proof.Machine

/-- What the issue of an instruction is made of. -/
theorem issue_inv {s : State} {op f x} (h : s.issue? op f = some x) :
    x.s = s ∧ x.op = op ∧ x.f = f ∧ x.len = opLength op ∧ s.wave? s.cur = some x.wave ∧ s.team? x.wave.uid = some x.team ∧
      s.grid? x.team.gid = some x.grid ∧ s.ctx? x.grid.ctx = some x.ctx ∧
      ∃ l rest, x.team.active x.wave = l :: rest ∧ x.pc = l.2.pc ∧
        x.parts = (l :: rest).filter fun lt => guardHolds f.guard s lt.1 lt.2 := by
  unfold State.issue? at h
  simp only [Option.bind_eq_some_iff] at h
  obtain ⟨w, hw, t, ht, g, hg, c, hc, h⟩ := h
  split at h
  · contradiction
  · next l rest ha =>
    obtain rfl := Option.some.inj h
    exact ⟨rfl, rfl, rfl, rfl, hw, ht, hg, hc, l, rest, ha, rfl, rfl⟩

theorem State.Runs.s {s : State} {op f x} (h : s.Runs op f x) : x.s = s := (issue_inv h.1).1
theorem State.Runs.op {s : State} {op f x} (h : s.Runs op f x) : x.op = op := (issue_inv h.1).2.1
theorem State.Runs.f {s : State} {op f x} (h : s.Runs op f x) : x.f = f := (issue_inv h.1).2.2.1
theorem State.Runs.len {s : State} {op f x} (h : s.Runs op f x) : x.len = opLength op := (issue_inv h.1).2.2.2.1

theorem team_uid {s : State} {uid t} (h : s.team? uid = some t) : t.uid = uid := by
  simpa using List.find?_some h

theorem State.Runs.wave {s : State} {op f x} (h : s.Runs op f x) : s.wave? x.wave.wid = some x.wave := by
  have := (issue_inv h.1).2.2.2.2.1
  have hw : x.wave.wid = s.cur := by simpa using List.find?_some this
  rw [hw]; exact this

theorem State.Runs.uid {s : State} {op f x} (h : s.Runs op f x) : x.team.uid = x.wave.uid :=
  team_uid (issue_inv h.1).2.2.2.2.2.1

theorem State.Runs.team {s : State} {op f x} (h : s.Runs op f x) : s.team? x.team.uid = some x.team := by
  rw [h.uid]; exact (issue_inv h.1).2.2.2.2.2.1

/-- A participant is a thread of the team, at its lane of the wave. -/
theorem State.Runs.part {s : State} {op f x lt} (h : s.Runs op f x) (hl : lt ∈ x.parts) :
    (lt.1, lt.2.tid) ∈ x.wave.lanes ∧ x.team.thread? lt.2.tid = some lt.2 := by
  obtain ⟨-, -, -, -, -, -, -, -, l, rest, ha, -, hp⟩ := issue_inv h.1
  rw [hp, ← ha] at hl
  have := (List.mem_filter.mp hl).1
  unfold Team.active at this
  obtain ⟨k, hk, hk'⟩ := List.mem_filterMap.mp this
  obtain ⟨th, hth, rfl⟩ := Option.map_eq_some_iff.mp hk'
  have htid : th.tid = k.2 := by simpa using List.find?_some hth
  exact ⟨by simpa [htid] using hk, by simpa [htid] using hth⟩

theorem computes_runs {op f s x w val} (h : s.Runs op f x) :
    runWave op f (computes w val) s = .next (x.gives w (val x) s) := runWave_runs h

theorem computesPred_runs {op f s x val} (h : s.Runs op f x) :
    runWave op f (computesPred val) s = .next (x.givesPred (val x) s) := runWave_runs h

theorem plain_runs {op f s x act} (h : s.Runs op f x) : runWave op f (plain act) s = .next (x.advance [] (act x s)) :=
  runWave_runs h

/-- A check that no participant fails lets the body act. -/
theorem unlessRaised_ok {c check body} {x : Issue} {s : State} (h : ∀ lt ∈ x.parts, check x lt = none) :
    unlessRaised c check body x s = body x s := by
  have : x.raised (check x) = [] := by
    simpa [Issue.raised, List.filterMap_eq_nil_iff] using h
  simp [unlessRaised, this]

/-- A check that a participant fails raises its cause for those that fail it. -/
theorem unlessRaised_trap {c check body} {x : Issue} {s : State} (h : ∃ lt ∈ x.parts, check x lt ≠ none) :
    unlessRaised c check body x s = (s, .trap c (x.raised (check x))) := by
  have : x.raised (check x) ≠ [] := by
    intro hn
    simp only [Issue.raised, List.filterMap_eq_nil_iff, Option.map_eq_none_iff] at hn
    obtain ⟨lt, hl, hc⟩ := h
    exact hc (hn lt hl)
  unfold unlessRaised
  split
  · contradiction
  · rfl

theorem Issue.parts_self (x : Issue) : { x with parts := x.parts } = x := rfl

/-- A release that has taken effect for each participant holds none of them back. -/
theorem afterReleaseOf_ok {who sc body} {x : Issue} {s : State} (hs : x.s = s) (h : x.released sc) :
    afterReleaseOf who sc body x s = body x s.tick := by
  subst hs
  have : (x.parts.filter fun lt => who lt && !(lt.2.released || x.s.relOk .normal sc x.team lt.2 (x.wave.since.getD x.s.seq))) = [] := by
    simp only [List.filter_eq_nil_iff]
    intro lt hl
    rcases h lt hl with h | h <;> simp [h]
  have hf : (x.parts.filter fun lt => !(([] : List (Nat × Thread)).map (·.2.tid)).contains lt.2.tid) = x.parts := by
    simp
  unfold afterReleaseOf
  dsimp only
  rw [this, hf]
  rfl

theorem afterRelease_ok {sc body} {x : Issue} {s : State} (hs : x.s = s) (h : x.released sc) :
    afterRelease sc body x s = body x s.tick := afterReleaseOf_ok hs h

theorem whenReady_ok {ready body} {x : Issue} {s : State} (h : ∀ lt ∈ x.parts, ready x s lt = true) :
    whenReady ready body x s = body x s := by
  exact if_pos (List.all_eq_true.mpr h)

/-- With no refused remote operation to report, the body acts. -/
theorem nacksFirst_ok {body} {x : Issue} {s : State} (hs : x.s = s) (h : x.noNack) : nacksFirst body x s = body x s := by
  subst hs
  have : (x.parts.filterMap fun lt => (x.s.nackOf x.team.uid lt.2.tid).map fun n => (lt.2.tid, n)) = [] := by
    simp only [List.filterMap_eq_nil_iff, Option.map_eq_none_iff]
    exact h
  unfold nacksFirst
  dsimp only
  rw [this]
  rfl

theorem releaseReports_ok {body} {x : Issue} {s : State} (hs : x.s = s) (h : x.noNack) :
    releaseReports body x s = body x s := by
  unfold releaseReports
  split
  · exact nacksFirst_ok hs h
  · rfl

theorem fenceReports_ok {body} {x : Issue} {s : State} (hs : x.s = s) (h : x.noNack) : fenceReports body x s = body x s := by
  unfold fenceReports
  split
  · exact nacksFirst_ok hs h
  · rfl

/-- The checks of R274 that every participant passes let the body act. -/
theorem memChecked_ok {body} {x : Issue} {s : State} (h : ∀ c ∈ x.memChecks, ∀ lt ∈ x.parts, c.2 lt = none) :
    memChecked body x s = body x s := by
  simp only [Issue.memChecks, List.forall_mem_cons] at h
  obtain ⟨h1, h2, h3, h4, h5, h6, h7, h8, -⟩ := h
  unfold memChecked
  rw [unlessRaised_ok h1, unlessRaised_ok h2, unlessRaised_ok h3, unlessRaised_ok h4, unlessRaised_ok h5,
    unlessRaised_ok h6, unlessRaised_ok h7, unlessRaised_ok h8]

theorem recordChecked_ok {body} {x : Issue} {s : State} (h : ∀ c ∈ [0x10, 0x11, 0x12], ∀ lt ∈ x.parts, recordErr c x lt = none) :
    recordChecked body x s = body x s := by
  simp only [List.forall_mem_cons] at h
  obtain ⟨h1, h2, h3, -⟩ := h
  unfold recordChecked
  exact (unlessRaised_ok h1).trans ((unlessRaised_ok h2).trans (unlessRaised_ok h3))

end Sys2Proof.Machine
end

