-- ==== Sys2Proof/Laws/State.lean ====
section
/-! SUPPORT. What each update of the state leaves in each field. -/

namespace Sys2Proof.Machine

/-! ## State.updTeam -/

@[simp] theorem State.updTeam_agenda (s : State) (uid : Nat) (g : Team → Team) : (s.updTeam uid g).agenda = s.agenda := rfl
@[simp] theorem State.updTeam_cur (s : State) (uid : Nat) (g : Team → Team) : (s.updTeam uid g).cur = s.cur := rfl
@[simp] theorem State.updTeam_freeCtr (s : State) (uid : Nat) (g : Team → Team) : (s.updTeam uid g).freeCtr = s.freeCtr := rfl
@[simp] theorem State.updTeam_seq (s : State) (uid : Nat) (g : Team → Team) : (s.updTeam uid g).seq = s.seq := rfl
@[simp] theorem State.updTeam_marks (s : State) (uid : Nat) (g : Team → Team) : (s.updTeam uid g).marks = s.marks := rfl
@[simp] theorem State.updTeam_guardWrites (s : State) (uid : Nat) (g : Team → Team) : (s.updTeam uid g).guardWrites = s.guardWrites := rfl
@[simp] theorem State.updTeam_mem (s : State) (uid : Nat) (g : Team → Team) : (s.updTeam uid g).mem = s.mem := rfl
@[simp] theorem State.updTeam_poison (s : State) (uid : Nat) (g : Team → Team) : (s.updTeam uid g).poison = s.poison := rfl
@[simp] theorem State.updTeam_cycles (s : State) (uid : Nat) (g : Team → Team) : (s.updTeam uid g).cycles = s.cycles := rfl
@[simp] theorem State.updTeam_deviceId (s : State) (uid : Nat) (g : Team → Team) : (s.updTeam uid g).deviceId = s.deviceId := rfl
@[simp] theorem State.updTeam_lifecycle (s : State) (uid : Nat) (g : Team → Team) : (s.updTeam uid g).lifecycle = s.lifecycle := rfl
@[simp] theorem State.updTeam_fwsvn (s : State) (uid : Nat) (g : Team → Team) : (s.updTeam uid g).fwsvn = s.fwsvn := rfl
@[simp] theorem State.updTeam_boots (s : State) (uid : Nat) (g : Team → Team) : (s.updTeam uid g).boots = s.boots := rfl
@[simp] theorem State.updTeam_boot (s : State) (uid : Nat) (g : Team → Team) : (s.updTeam uid g).boot = s.boot := rfl
@[simp] theorem State.updTeam_pinBudget (s : State) (uid : Nat) (g : Team → Team) : (s.updTeam uid g).pinBudget = s.pinBudget := rfl
@[simp] theorem State.updTeam_nocAvoid (s : State) (uid : Nat) (g : Team → Team) : (s.updTeam uid g).nocAvoid = s.nocAvoid := rfl
@[simp] theorem State.updTeam_ports (s : State) (uid : Nat) (g : Team → Team) : (s.updTeam uid g).ports = s.ports := rfl
@[simp] theorem State.updTeam_nocDown (s : State) (uid : Nat) (g : Team → Team) : (s.updTeam uid g).nocDown = s.nocDown := rfl
@[simp] theorem State.updTeam_ecc (s : State) (uid : Nat) (g : Team → Team) : (s.updTeam uid g).ecc = s.ecc := rfl
@[simp] theorem State.updTeam_pinbyp (s : State) (uid : Nat) (g : Team → Team) : (s.updTeam uid g).pinbyp = s.pinbyp := rfl
@[simp] theorem State.updTeam_assists (s : State) (uid : Nat) (g : Team → Team) : (s.updTeam uid g).assists = s.assists := rfl
@[simp] theorem State.updTeam_throttled (s : State) (uid : Nat) (g : Team → Team) : (s.updTeam uid g).throttled = s.throttled := rfl
@[simp] theorem State.updTeam_outbox (s : State) (uid : Nat) (g : Team → Team) : (s.updTeam uid g).outbox = s.outbox := rfl
@[simp] theorem State.updTeam_unsent (s : State) (uid : Nat) (g : Team → Team) : (s.updTeam uid g).unsent = s.unsent := rfl
@[simp] theorem State.updTeam_signatures (s : State) (uid : Nat) (g : Team → Team) : (s.updTeam uid g).signatures = s.signatures := rfl
@[simp] theorem State.updTeam_keyErased (s : State) (uid : Nat) (g : Team → Team) : (s.updTeam uid g).keyErased = s.keyErased := rfl
@[simp] theorem State.updTeam_tlb (s : State) (uid : Nat) (g : Team → Team) : (s.updTeam uid g).tlb = s.tlb := rfl
@[simp] theorem State.updTeam_walks (s : State) (uid : Nat) (g : Team → Team) : (s.updTeam uid g).walks = s.walks := rfl
@[simp] theorem State.updTeam_l1 (s : State) (uid : Nat) (g : Team → Team) : (s.updTeam uid g).l1 = s.l1 := rfl
@[simp] theorem State.updTeam_l2 (s : State) (uid : Nat) (g : Team → Team) : (s.updTeam uid g).l2 = s.l2 := rfl
@[simp] theorem State.updTeam_granuleCtx (s : State) (uid : Nat) (g : Team → Team) : (s.updTeam uid g).granuleCtx = s.granuleCtx := rfl
@[simp] theorem State.updTeam_granuleLeft (s : State) (uid : Nat) (g : Team → Team) : (s.updTeam uid g).granuleLeft = s.granuleLeft := rfl
@[simp] theorem State.updTeam_holders (s : State) (uid : Nat) (g : Team → Team) : (s.updTeam uid g).holders = s.holders := rfl
@[simp] theorem State.updTeam_msgs (s : State) (uid : Nat) (g : Team → Team) : (s.updTeam uid g).msgs = s.msgs := rfl
@[simp] theorem State.updTeam_deferred (s : State) (uid : Nat) (g : Team → Team) : (s.updTeam uid g).deferred = s.deferred := rfl
@[simp] theorem State.updTeam_icache (s : State) (uid : Nat) (g : Team → Team) : (s.updTeam uid g).icache = s.icache := rfl
@[simp] theorem State.updTeam_fetches (s : State) (uid : Nat) (g : Team → Team) : (s.updTeam uid g).fetches = s.fetches := rfl
@[simp] theorem State.updTeam_mapCache (s : State) (uid : Nat) (g : Team → Team) : (s.updTeam uid g).mapCache = s.mapCache := rfl
@[simp] theorem State.updTeam_contexts (s : State) (uid : Nat) (g : Team → Team) : (s.updTeam uid g).contexts = s.contexts := rfl
@[simp] theorem State.updTeam_grids (s : State) (uid : Nat) (g : Team → Team) : (s.updTeam uid g).grids = s.grids := rfl
@[simp] theorem State.updTeam_teams (s : State) (uid : Nat) (g : Team → Team) : (s.updTeam uid g).teams = updWhere (·.uid == uid) g s.teams := rfl
@[simp] theorem State.updTeam_waves (s : State) (uid : Nat) (g : Team → Team) : (s.updTeam uid g).waves = s.waves := rfl
@[simp] theorem State.updTeam_meres (s : State) (uid : Nat) (g : Team → Team) : (s.updTeam uid g).meres = s.meres := rfl
@[simp] theorem State.updTeam_parcels (s : State) (uid : Nat) (g : Team → Team) : (s.updTeam uid g).parcels = s.parcels := rfl
@[simp] theorem State.updTeam_admission (s : State) (uid : Nat) (g : Team → Team) : (s.updTeam uid g).admission = s.admission := rfl
@[simp] theorem State.updTeam_pacHead (s : State) (uid : Nat) (g : Team → Team) : (s.updTeam uid g).pacHead = s.pacHead := rfl
@[simp] theorem State.updTeam_pacDue (s : State) (uid : Nat) (g : Team → Team) : (s.updTeam uid g).pacDue = s.pacDue := rfl
@[simp] theorem State.updTeam_polders (s : State) (uid : Nat) (g : Team → Team) : (s.updTeam uid g).polders = s.polders := rfl
@[simp] theorem State.updTeam_ending (s : State) (uid : Nat) (g : Team → Team) : (s.updTeam uid g).ending = s.ending := rfl
@[simp] theorem State.updTeam_events (s : State) (uid : Nat) (g : Team → Team) : (s.updTeam uid g).events = s.events := rfl
@[simp] theorem State.updTeam_embargoes (s : State) (uid : Nat) (g : Team → Team) : (s.updTeam uid g).embargoes = s.embargoes := rfl
@[simp] theorem State.updTeam_pool (s : State) (uid : Nat) (g : Team → Team) : (s.updTeam uid g).pool = s.pool := rfl
@[simp] theorem State.updTeam_pendingLaunches (s : State) (uid : Nat) (g : Team → Team) : (s.updTeam uid g).pendingLaunches = s.pendingLaunches := rfl
@[simp] theorem State.updTeam_staging (s : State) (uid : Nat) (g : Team → Team) : (s.updTeam uid g).staging = s.staging := rfl
@[simp] theorem State.updTeam_couriers (s : State) (uid : Nat) (g : Team → Team) : (s.updTeam uid g).couriers = s.couriers := rfl
@[simp] theorem State.updTeam_engines (s : State) (uid : Nat) (g : Team → Team) : (s.updTeam uid g).engines = s.engines := rfl
@[simp] theorem State.updTeam_matrix (s : State) (uid : Nat) (g : Team → Team) : (s.updTeam uid g).matrix = s.matrix := rfl
@[simp] theorem State.updTeam_offices (s : State) (uid : Nat) (g : Team → Team) : (s.updTeam uid g).offices = s.offices := rfl
@[simp] theorem State.updTeam_remotes (s : State) (uid : Nat) (g : Team → Team) : (s.updTeam uid g).remotes = s.remotes := rfl
@[simp] theorem State.updTeam_packets (s : State) (uid : Nat) (g : Team → Team) : (s.updTeam uid g).packets = s.packets := rfl
@[simp] theorem State.updTeam_frames (s : State) (uid : Nat) (g : Team → Team) : (s.updTeam uid g).frames = s.frames := rfl
@[simp] theorem State.updTeam_served (s : State) (uid : Nat) (g : Team → Team) : (s.updTeam uid g).served = s.served := rfl

/-! ## State.updThread -/

@[simp] theorem State.updThread_agenda (s : State) (uid tid : Nat) (g : Thread → Thread) : (s.updThread uid tid g).agenda = s.agenda := rfl
@[simp] theorem State.updThread_cur (s : State) (uid tid : Nat) (g : Thread → Thread) : (s.updThread uid tid g).cur = s.cur := rfl
@[simp] theorem State.updThread_freeCtr (s : State) (uid tid : Nat) (g : Thread → Thread) : (s.updThread uid tid g).freeCtr = s.freeCtr := rfl
@[simp] theorem State.updThread_seq (s : State) (uid tid : Nat) (g : Thread → Thread) : (s.updThread uid tid g).seq = s.seq := rfl
@[simp] theorem State.updThread_marks (s : State) (uid tid : Nat) (g : Thread → Thread) : (s.updThread uid tid g).marks = s.marks := rfl
@[simp] theorem State.updThread_guardWrites (s : State) (uid tid : Nat) (g : Thread → Thread) : (s.updThread uid tid g).guardWrites = s.guardWrites := rfl
@[simp] theorem State.updThread_mem (s : State) (uid tid : Nat) (g : Thread → Thread) : (s.updThread uid tid g).mem = s.mem := rfl
@[simp] theorem State.updThread_poison (s : State) (uid tid : Nat) (g : Thread → Thread) : (s.updThread uid tid g).poison = s.poison := rfl
@[simp] theorem State.updThread_cycles (s : State) (uid tid : Nat) (g : Thread → Thread) : (s.updThread uid tid g).cycles = s.cycles := rfl
@[simp] theorem State.updThread_deviceId (s : State) (uid tid : Nat) (g : Thread → Thread) : (s.updThread uid tid g).deviceId = s.deviceId := rfl
@[simp] theorem State.updThread_lifecycle (s : State) (uid tid : Nat) (g : Thread → Thread) : (s.updThread uid tid g).lifecycle = s.lifecycle := rfl
@[simp] theorem State.updThread_fwsvn (s : State) (uid tid : Nat) (g : Thread → Thread) : (s.updThread uid tid g).fwsvn = s.fwsvn := rfl
@[simp] theorem State.updThread_boots (s : State) (uid tid : Nat) (g : Thread → Thread) : (s.updThread uid tid g).boots = s.boots := rfl
@[simp] theorem State.updThread_boot (s : State) (uid tid : Nat) (g : Thread → Thread) : (s.updThread uid tid g).boot = s.boot := rfl
@[simp] theorem State.updThread_pinBudget (s : State) (uid tid : Nat) (g : Thread → Thread) : (s.updThread uid tid g).pinBudget = s.pinBudget := rfl
@[simp] theorem State.updThread_nocAvoid (s : State) (uid tid : Nat) (g : Thread → Thread) : (s.updThread uid tid g).nocAvoid = s.nocAvoid := rfl
@[simp] theorem State.updThread_ports (s : State) (uid tid : Nat) (g : Thread → Thread) : (s.updThread uid tid g).ports = s.ports := rfl
@[simp] theorem State.updThread_nocDown (s : State) (uid tid : Nat) (g : Thread → Thread) : (s.updThread uid tid g).nocDown = s.nocDown := rfl
@[simp] theorem State.updThread_ecc (s : State) (uid tid : Nat) (g : Thread → Thread) : (s.updThread uid tid g).ecc = s.ecc := rfl
@[simp] theorem State.updThread_pinbyp (s : State) (uid tid : Nat) (g : Thread → Thread) : (s.updThread uid tid g).pinbyp = s.pinbyp := rfl
@[simp] theorem State.updThread_assists (s : State) (uid tid : Nat) (g : Thread → Thread) : (s.updThread uid tid g).assists = s.assists := rfl
@[simp] theorem State.updThread_throttled (s : State) (uid tid : Nat) (g : Thread → Thread) : (s.updThread uid tid g).throttled = s.throttled := rfl
@[simp] theorem State.updThread_outbox (s : State) (uid tid : Nat) (g : Thread → Thread) : (s.updThread uid tid g).outbox = s.outbox := rfl
@[simp] theorem State.updThread_unsent (s : State) (uid tid : Nat) (g : Thread → Thread) : (s.updThread uid tid g).unsent = s.unsent := rfl
@[simp] theorem State.updThread_signatures (s : State) (uid tid : Nat) (g : Thread → Thread) : (s.updThread uid tid g).signatures = s.signatures := rfl
@[simp] theorem State.updThread_keyErased (s : State) (uid tid : Nat) (g : Thread → Thread) : (s.updThread uid tid g).keyErased = s.keyErased := rfl
@[simp] theorem State.updThread_tlb (s : State) (uid tid : Nat) (g : Thread → Thread) : (s.updThread uid tid g).tlb = s.tlb := rfl
@[simp] theorem State.updThread_walks (s : State) (uid tid : Nat) (g : Thread → Thread) : (s.updThread uid tid g).walks = s.walks := rfl
@[simp] theorem State.updThread_l1 (s : State) (uid tid : Nat) (g : Thread → Thread) : (s.updThread uid tid g).l1 = s.l1 := rfl
@[simp] theorem State.updThread_l2 (s : State) (uid tid : Nat) (g : Thread → Thread) : (s.updThread uid tid g).l2 = s.l2 := rfl
@[simp] theorem State.updThread_granuleCtx (s : State) (uid tid : Nat) (g : Thread → Thread) : (s.updThread uid tid g).granuleCtx = s.granuleCtx := rfl
@[simp] theorem State.updThread_granuleLeft (s : State) (uid tid : Nat) (g : Thread → Thread) : (s.updThread uid tid g).granuleLeft = s.granuleLeft := rfl
@[simp] theorem State.updThread_holders (s : State) (uid tid : Nat) (g : Thread → Thread) : (s.updThread uid tid g).holders = s.holders := rfl
@[simp] theorem State.updThread_msgs (s : State) (uid tid : Nat) (g : Thread → Thread) : (s.updThread uid tid g).msgs = s.msgs := rfl
@[simp] theorem State.updThread_deferred (s : State) (uid tid : Nat) (g : Thread → Thread) : (s.updThread uid tid g).deferred = s.deferred := rfl
@[simp] theorem State.updThread_icache (s : State) (uid tid : Nat) (g : Thread → Thread) : (s.updThread uid tid g).icache = s.icache := rfl
@[simp] theorem State.updThread_fetches (s : State) (uid tid : Nat) (g : Thread → Thread) : (s.updThread uid tid g).fetches = s.fetches := rfl
@[simp] theorem State.updThread_mapCache (s : State) (uid tid : Nat) (g : Thread → Thread) : (s.updThread uid tid g).mapCache = s.mapCache := rfl
@[simp] theorem State.updThread_contexts (s : State) (uid tid : Nat) (g : Thread → Thread) : (s.updThread uid tid g).contexts = s.contexts := rfl
@[simp] theorem State.updThread_grids (s : State) (uid tid : Nat) (g : Thread → Thread) : (s.updThread uid tid g).grids = s.grids := rfl
@[simp] theorem State.updThread_teams (s : State) (uid tid : Nat) (g : Thread → Thread) : (s.updThread uid tid g).teams = updWhere (·.uid == uid) (fun t => t.updThread tid g) s.teams := rfl
@[simp] theorem State.updThread_waves (s : State) (uid tid : Nat) (g : Thread → Thread) : (s.updThread uid tid g).waves = s.waves := rfl
@[simp] theorem State.updThread_meres (s : State) (uid tid : Nat) (g : Thread → Thread) : (s.updThread uid tid g).meres = s.meres := rfl
@[simp] theorem State.updThread_parcels (s : State) (uid tid : Nat) (g : Thread → Thread) : (s.updThread uid tid g).parcels = s.parcels := rfl
@[simp] theorem State.updThread_admission (s : State) (uid tid : Nat) (g : Thread → Thread) : (s.updThread uid tid g).admission = s.admission := rfl
@[simp] theorem State.updThread_pacHead (s : State) (uid tid : Nat) (g : Thread → Thread) : (s.updThread uid tid g).pacHead = s.pacHead := rfl
@[simp] theorem State.updThread_pacDue (s : State) (uid tid : Nat) (g : Thread → Thread) : (s.updThread uid tid g).pacDue = s.pacDue := rfl
@[simp] theorem State.updThread_polders (s : State) (uid tid : Nat) (g : Thread → Thread) : (s.updThread uid tid g).polders = s.polders := rfl
@[simp] theorem State.updThread_ending (s : State) (uid tid : Nat) (g : Thread → Thread) : (s.updThread uid tid g).ending = s.ending := rfl
@[simp] theorem State.updThread_events (s : State) (uid tid : Nat) (g : Thread → Thread) : (s.updThread uid tid g).events = s.events := rfl
@[simp] theorem State.updThread_embargoes (s : State) (uid tid : Nat) (g : Thread → Thread) : (s.updThread uid tid g).embargoes = s.embargoes := rfl
@[simp] theorem State.updThread_pool (s : State) (uid tid : Nat) (g : Thread → Thread) : (s.updThread uid tid g).pool = s.pool := rfl
@[simp] theorem State.updThread_pendingLaunches (s : State) (uid tid : Nat) (g : Thread → Thread) : (s.updThread uid tid g).pendingLaunches = s.pendingLaunches := rfl
@[simp] theorem State.updThread_staging (s : State) (uid tid : Nat) (g : Thread → Thread) : (s.updThread uid tid g).staging = s.staging := rfl
@[simp] theorem State.updThread_couriers (s : State) (uid tid : Nat) (g : Thread → Thread) : (s.updThread uid tid g).couriers = s.couriers := rfl
@[simp] theorem State.updThread_engines (s : State) (uid tid : Nat) (g : Thread → Thread) : (s.updThread uid tid g).engines = s.engines := rfl
@[simp] theorem State.updThread_matrix (s : State) (uid tid : Nat) (g : Thread → Thread) : (s.updThread uid tid g).matrix = s.matrix := rfl
@[simp] theorem State.updThread_offices (s : State) (uid tid : Nat) (g : Thread → Thread) : (s.updThread uid tid g).offices = s.offices := rfl
@[simp] theorem State.updThread_remotes (s : State) (uid tid : Nat) (g : Thread → Thread) : (s.updThread uid tid g).remotes = s.remotes := rfl
@[simp] theorem State.updThread_packets (s : State) (uid tid : Nat) (g : Thread → Thread) : (s.updThread uid tid g).packets = s.packets := rfl
@[simp] theorem State.updThread_frames (s : State) (uid tid : Nat) (g : Thread → Thread) : (s.updThread uid tid g).frames = s.frames := rfl
@[simp] theorem State.updThread_served (s : State) (uid tid : Nat) (g : Thread → Thread) : (s.updThread uid tid g).served = s.served := rfl

/-! ## State.updThreads -/

@[simp] theorem State.updThreads_agenda (s : State) (uid : Nat) (tids : List Nat) (g : Thread → Thread) : (s.updThreads uid tids g).agenda = s.agenda := rfl
@[simp] theorem State.updThreads_cur (s : State) (uid : Nat) (tids : List Nat) (g : Thread → Thread) : (s.updThreads uid tids g).cur = s.cur := rfl
@[simp] theorem State.updThreads_freeCtr (s : State) (uid : Nat) (tids : List Nat) (g : Thread → Thread) : (s.updThreads uid tids g).freeCtr = s.freeCtr := rfl
@[simp] theorem State.updThreads_seq (s : State) (uid : Nat) (tids : List Nat) (g : Thread → Thread) : (s.updThreads uid tids g).seq = s.seq := rfl
@[simp] theorem State.updThreads_marks (s : State) (uid : Nat) (tids : List Nat) (g : Thread → Thread) : (s.updThreads uid tids g).marks = s.marks := rfl
@[simp] theorem State.updThreads_guardWrites (s : State) (uid : Nat) (tids : List Nat) (g : Thread → Thread) : (s.updThreads uid tids g).guardWrites = s.guardWrites := rfl
@[simp] theorem State.updThreads_mem (s : State) (uid : Nat) (tids : List Nat) (g : Thread → Thread) : (s.updThreads uid tids g).mem = s.mem := rfl
@[simp] theorem State.updThreads_poison (s : State) (uid : Nat) (tids : List Nat) (g : Thread → Thread) : (s.updThreads uid tids g).poison = s.poison := rfl
@[simp] theorem State.updThreads_cycles (s : State) (uid : Nat) (tids : List Nat) (g : Thread → Thread) : (s.updThreads uid tids g).cycles = s.cycles := rfl
@[simp] theorem State.updThreads_deviceId (s : State) (uid : Nat) (tids : List Nat) (g : Thread → Thread) : (s.updThreads uid tids g).deviceId = s.deviceId := rfl
@[simp] theorem State.updThreads_lifecycle (s : State) (uid : Nat) (tids : List Nat) (g : Thread → Thread) : (s.updThreads uid tids g).lifecycle = s.lifecycle := rfl
@[simp] theorem State.updThreads_fwsvn (s : State) (uid : Nat) (tids : List Nat) (g : Thread → Thread) : (s.updThreads uid tids g).fwsvn = s.fwsvn := rfl
@[simp] theorem State.updThreads_boots (s : State) (uid : Nat) (tids : List Nat) (g : Thread → Thread) : (s.updThreads uid tids g).boots = s.boots := rfl
@[simp] theorem State.updThreads_boot (s : State) (uid : Nat) (tids : List Nat) (g : Thread → Thread) : (s.updThreads uid tids g).boot = s.boot := rfl
@[simp] theorem State.updThreads_pinBudget (s : State) (uid : Nat) (tids : List Nat) (g : Thread → Thread) : (s.updThreads uid tids g).pinBudget = s.pinBudget := rfl
@[simp] theorem State.updThreads_nocAvoid (s : State) (uid : Nat) (tids : List Nat) (g : Thread → Thread) : (s.updThreads uid tids g).nocAvoid = s.nocAvoid := rfl
@[simp] theorem State.updThreads_ports (s : State) (uid : Nat) (tids : List Nat) (g : Thread → Thread) : (s.updThreads uid tids g).ports = s.ports := rfl
@[simp] theorem State.updThreads_nocDown (s : State) (uid : Nat) (tids : List Nat) (g : Thread → Thread) : (s.updThreads uid tids g).nocDown = s.nocDown := rfl
@[simp] theorem State.updThreads_ecc (s : State) (uid : Nat) (tids : List Nat) (g : Thread → Thread) : (s.updThreads uid tids g).ecc = s.ecc := rfl
@[simp] theorem State.updThreads_pinbyp (s : State) (uid : Nat) (tids : List Nat) (g : Thread → Thread) : (s.updThreads uid tids g).pinbyp = s.pinbyp := rfl
@[simp] theorem State.updThreads_assists (s : State) (uid : Nat) (tids : List Nat) (g : Thread → Thread) : (s.updThreads uid tids g).assists = s.assists := rfl
@[simp] theorem State.updThreads_throttled (s : State) (uid : Nat) (tids : List Nat) (g : Thread → Thread) : (s.updThreads uid tids g).throttled = s.throttled := rfl
@[simp] theorem State.updThreads_outbox (s : State) (uid : Nat) (tids : List Nat) (g : Thread → Thread) : (s.updThreads uid tids g).outbox = s.outbox := rfl
@[simp] theorem State.updThreads_unsent (s : State) (uid : Nat) (tids : List Nat) (g : Thread → Thread) : (s.updThreads uid tids g).unsent = s.unsent := rfl
@[simp] theorem State.updThreads_signatures (s : State) (uid : Nat) (tids : List Nat) (g : Thread → Thread) : (s.updThreads uid tids g).signatures = s.signatures := rfl
@[simp] theorem State.updThreads_keyErased (s : State) (uid : Nat) (tids : List Nat) (g : Thread → Thread) : (s.updThreads uid tids g).keyErased = s.keyErased := rfl
@[simp] theorem State.updThreads_tlb (s : State) (uid : Nat) (tids : List Nat) (g : Thread → Thread) : (s.updThreads uid tids g).tlb = s.tlb := rfl
@[simp] theorem State.updThreads_walks (s : State) (uid : Nat) (tids : List Nat) (g : Thread → Thread) : (s.updThreads uid tids g).walks = s.walks := rfl
@[simp] theorem State.updThreads_l1 (s : State) (uid : Nat) (tids : List Nat) (g : Thread → Thread) : (s.updThreads uid tids g).l1 = s.l1 := rfl
@[simp] theorem State.updThreads_l2 (s : State) (uid : Nat) (tids : List Nat) (g : Thread → Thread) : (s.updThreads uid tids g).l2 = s.l2 := rfl
@[simp] theorem State.updThreads_granuleCtx (s : State) (uid : Nat) (tids : List Nat) (g : Thread → Thread) : (s.updThreads uid tids g).granuleCtx = s.granuleCtx := rfl
@[simp] theorem State.updThreads_granuleLeft (s : State) (uid : Nat) (tids : List Nat) (g : Thread → Thread) : (s.updThreads uid tids g).granuleLeft = s.granuleLeft := rfl
@[simp] theorem State.updThreads_holders (s : State) (uid : Nat) (tids : List Nat) (g : Thread → Thread) : (s.updThreads uid tids g).holders = s.holders := rfl
@[simp] theorem State.updThreads_msgs (s : State) (uid : Nat) (tids : List Nat) (g : Thread → Thread) : (s.updThreads uid tids g).msgs = s.msgs := rfl
@[simp] theorem State.updThreads_deferred (s : State) (uid : Nat) (tids : List Nat) (g : Thread → Thread) : (s.updThreads uid tids g).deferred = s.deferred := rfl
@[simp] theorem State.updThreads_icache (s : State) (uid : Nat) (tids : List Nat) (g : Thread → Thread) : (s.updThreads uid tids g).icache = s.icache := rfl
@[simp] theorem State.updThreads_fetches (s : State) (uid : Nat) (tids : List Nat) (g : Thread → Thread) : (s.updThreads uid tids g).fetches = s.fetches := rfl
@[simp] theorem State.updThreads_mapCache (s : State) (uid : Nat) (tids : List Nat) (g : Thread → Thread) : (s.updThreads uid tids g).mapCache = s.mapCache := rfl
@[simp] theorem State.updThreads_contexts (s : State) (uid : Nat) (tids : List Nat) (g : Thread → Thread) : (s.updThreads uid tids g).contexts = s.contexts := rfl
@[simp] theorem State.updThreads_grids (s : State) (uid : Nat) (tids : List Nat) (g : Thread → Thread) : (s.updThreads uid tids g).grids = s.grids := rfl
@[simp] theorem State.updThreads_teams (s : State) (uid : Nat) (tids : List Nat) (g : Thread → Thread) : (s.updThreads uid tids g).teams = updWhere (·.uid == uid) (fun t => { t with threads := updWhere (fun th => tids.contains th.tid) g t.threads }) s.teams := rfl
@[simp] theorem State.updThreads_waves (s : State) (uid : Nat) (tids : List Nat) (g : Thread → Thread) : (s.updThreads uid tids g).waves = s.waves := rfl
@[simp] theorem State.updThreads_meres (s : State) (uid : Nat) (tids : List Nat) (g : Thread → Thread) : (s.updThreads uid tids g).meres = s.meres := rfl
@[simp] theorem State.updThreads_parcels (s : State) (uid : Nat) (tids : List Nat) (g : Thread → Thread) : (s.updThreads uid tids g).parcels = s.parcels := rfl
@[simp] theorem State.updThreads_admission (s : State) (uid : Nat) (tids : List Nat) (g : Thread → Thread) : (s.updThreads uid tids g).admission = s.admission := rfl
@[simp] theorem State.updThreads_pacHead (s : State) (uid : Nat) (tids : List Nat) (g : Thread → Thread) : (s.updThreads uid tids g).pacHead = s.pacHead := rfl
@[simp] theorem State.updThreads_pacDue (s : State) (uid : Nat) (tids : List Nat) (g : Thread → Thread) : (s.updThreads uid tids g).pacDue = s.pacDue := rfl
@[simp] theorem State.updThreads_polders (s : State) (uid : Nat) (tids : List Nat) (g : Thread → Thread) : (s.updThreads uid tids g).polders = s.polders := rfl
@[simp] theorem State.updThreads_ending (s : State) (uid : Nat) (tids : List Nat) (g : Thread → Thread) : (s.updThreads uid tids g).ending = s.ending := rfl
@[simp] theorem State.updThreads_events (s : State) (uid : Nat) (tids : List Nat) (g : Thread → Thread) : (s.updThreads uid tids g).events = s.events := rfl
@[simp] theorem State.updThreads_embargoes (s : State) (uid : Nat) (tids : List Nat) (g : Thread → Thread) : (s.updThreads uid tids g).embargoes = s.embargoes := rfl
@[simp] theorem State.updThreads_pool (s : State) (uid : Nat) (tids : List Nat) (g : Thread → Thread) : (s.updThreads uid tids g).pool = s.pool := rfl
@[simp] theorem State.updThreads_pendingLaunches (s : State) (uid : Nat) (tids : List Nat) (g : Thread → Thread) : (s.updThreads uid tids g).pendingLaunches = s.pendingLaunches := rfl
@[simp] theorem State.updThreads_staging (s : State) (uid : Nat) (tids : List Nat) (g : Thread → Thread) : (s.updThreads uid tids g).staging = s.staging := rfl
@[simp] theorem State.updThreads_couriers (s : State) (uid : Nat) (tids : List Nat) (g : Thread → Thread) : (s.updThreads uid tids g).couriers = s.couriers := rfl
@[simp] theorem State.updThreads_engines (s : State) (uid : Nat) (tids : List Nat) (g : Thread → Thread) : (s.updThreads uid tids g).engines = s.engines := rfl
@[simp] theorem State.updThreads_matrix (s : State) (uid : Nat) (tids : List Nat) (g : Thread → Thread) : (s.updThreads uid tids g).matrix = s.matrix := rfl
@[simp] theorem State.updThreads_offices (s : State) (uid : Nat) (tids : List Nat) (g : Thread → Thread) : (s.updThreads uid tids g).offices = s.offices := rfl
@[simp] theorem State.updThreads_remotes (s : State) (uid : Nat) (tids : List Nat) (g : Thread → Thread) : (s.updThreads uid tids g).remotes = s.remotes := rfl
@[simp] theorem State.updThreads_packets (s : State) (uid : Nat) (tids : List Nat) (g : Thread → Thread) : (s.updThreads uid tids g).packets = s.packets := rfl
@[simp] theorem State.updThreads_frames (s : State) (uid : Nat) (tids : List Nat) (g : Thread → Thread) : (s.updThreads uid tids g).frames = s.frames := rfl
@[simp] theorem State.updThreads_served (s : State) (uid : Nat) (tids : List Nat) (g : Thread → Thread) : (s.updThreads uid tids g).served = s.served := rfl

/-! ## State.updWave -/

@[simp] theorem State.updWave_agenda (s : State) (wid : Nat) (g : Wave → Wave) : (s.updWave wid g).agenda = s.agenda := rfl
@[simp] theorem State.updWave_cur (s : State) (wid : Nat) (g : Wave → Wave) : (s.updWave wid g).cur = s.cur := rfl
@[simp] theorem State.updWave_freeCtr (s : State) (wid : Nat) (g : Wave → Wave) : (s.updWave wid g).freeCtr = s.freeCtr := rfl
@[simp] theorem State.updWave_seq (s : State) (wid : Nat) (g : Wave → Wave) : (s.updWave wid g).seq = s.seq := rfl
@[simp] theorem State.updWave_marks (s : State) (wid : Nat) (g : Wave → Wave) : (s.updWave wid g).marks = s.marks := rfl
@[simp] theorem State.updWave_guardWrites (s : State) (wid : Nat) (g : Wave → Wave) : (s.updWave wid g).guardWrites = s.guardWrites := rfl
@[simp] theorem State.updWave_mem (s : State) (wid : Nat) (g : Wave → Wave) : (s.updWave wid g).mem = s.mem := rfl
@[simp] theorem State.updWave_poison (s : State) (wid : Nat) (g : Wave → Wave) : (s.updWave wid g).poison = s.poison := rfl
@[simp] theorem State.updWave_cycles (s : State) (wid : Nat) (g : Wave → Wave) : (s.updWave wid g).cycles = s.cycles := rfl
@[simp] theorem State.updWave_deviceId (s : State) (wid : Nat) (g : Wave → Wave) : (s.updWave wid g).deviceId = s.deviceId := rfl
@[simp] theorem State.updWave_lifecycle (s : State) (wid : Nat) (g : Wave → Wave) : (s.updWave wid g).lifecycle = s.lifecycle := rfl
@[simp] theorem State.updWave_fwsvn (s : State) (wid : Nat) (g : Wave → Wave) : (s.updWave wid g).fwsvn = s.fwsvn := rfl
@[simp] theorem State.updWave_boots (s : State) (wid : Nat) (g : Wave → Wave) : (s.updWave wid g).boots = s.boots := rfl
@[simp] theorem State.updWave_boot (s : State) (wid : Nat) (g : Wave → Wave) : (s.updWave wid g).boot = s.boot := rfl
@[simp] theorem State.updWave_pinBudget (s : State) (wid : Nat) (g : Wave → Wave) : (s.updWave wid g).pinBudget = s.pinBudget := rfl
@[simp] theorem State.updWave_nocAvoid (s : State) (wid : Nat) (g : Wave → Wave) : (s.updWave wid g).nocAvoid = s.nocAvoid := rfl
@[simp] theorem State.updWave_ports (s : State) (wid : Nat) (g : Wave → Wave) : (s.updWave wid g).ports = s.ports := rfl
@[simp] theorem State.updWave_nocDown (s : State) (wid : Nat) (g : Wave → Wave) : (s.updWave wid g).nocDown = s.nocDown := rfl
@[simp] theorem State.updWave_ecc (s : State) (wid : Nat) (g : Wave → Wave) : (s.updWave wid g).ecc = s.ecc := rfl
@[simp] theorem State.updWave_pinbyp (s : State) (wid : Nat) (g : Wave → Wave) : (s.updWave wid g).pinbyp = s.pinbyp := rfl
@[simp] theorem State.updWave_assists (s : State) (wid : Nat) (g : Wave → Wave) : (s.updWave wid g).assists = s.assists := rfl
@[simp] theorem State.updWave_throttled (s : State) (wid : Nat) (g : Wave → Wave) : (s.updWave wid g).throttled = s.throttled := rfl
@[simp] theorem State.updWave_outbox (s : State) (wid : Nat) (g : Wave → Wave) : (s.updWave wid g).outbox = s.outbox := rfl
@[simp] theorem State.updWave_unsent (s : State) (wid : Nat) (g : Wave → Wave) : (s.updWave wid g).unsent = s.unsent := rfl
@[simp] theorem State.updWave_signatures (s : State) (wid : Nat) (g : Wave → Wave) : (s.updWave wid g).signatures = s.signatures := rfl
@[simp] theorem State.updWave_keyErased (s : State) (wid : Nat) (g : Wave → Wave) : (s.updWave wid g).keyErased = s.keyErased := rfl
@[simp] theorem State.updWave_tlb (s : State) (wid : Nat) (g : Wave → Wave) : (s.updWave wid g).tlb = s.tlb := rfl
@[simp] theorem State.updWave_walks (s : State) (wid : Nat) (g : Wave → Wave) : (s.updWave wid g).walks = s.walks := rfl
@[simp] theorem State.updWave_l1 (s : State) (wid : Nat) (g : Wave → Wave) : (s.updWave wid g).l1 = s.l1 := rfl
@[simp] theorem State.updWave_l2 (s : State) (wid : Nat) (g : Wave → Wave) : (s.updWave wid g).l2 = s.l2 := rfl
@[simp] theorem State.updWave_granuleCtx (s : State) (wid : Nat) (g : Wave → Wave) : (s.updWave wid g).granuleCtx = s.granuleCtx := rfl
@[simp] theorem State.updWave_granuleLeft (s : State) (wid : Nat) (g : Wave → Wave) : (s.updWave wid g).granuleLeft = s.granuleLeft := rfl
@[simp] theorem State.updWave_holders (s : State) (wid : Nat) (g : Wave → Wave) : (s.updWave wid g).holders = s.holders := rfl
@[simp] theorem State.updWave_msgs (s : State) (wid : Nat) (g : Wave → Wave) : (s.updWave wid g).msgs = s.msgs := rfl
@[simp] theorem State.updWave_deferred (s : State) (wid : Nat) (g : Wave → Wave) : (s.updWave wid g).deferred = s.deferred := rfl
@[simp] theorem State.updWave_icache (s : State) (wid : Nat) (g : Wave → Wave) : (s.updWave wid g).icache = s.icache := rfl
@[simp] theorem State.updWave_fetches (s : State) (wid : Nat) (g : Wave → Wave) : (s.updWave wid g).fetches = s.fetches := rfl
@[simp] theorem State.updWave_mapCache (s : State) (wid : Nat) (g : Wave → Wave) : (s.updWave wid g).mapCache = s.mapCache := rfl
@[simp] theorem State.updWave_contexts (s : State) (wid : Nat) (g : Wave → Wave) : (s.updWave wid g).contexts = s.contexts := rfl
@[simp] theorem State.updWave_grids (s : State) (wid : Nat) (g : Wave → Wave) : (s.updWave wid g).grids = s.grids := rfl
@[simp] theorem State.updWave_teams (s : State) (wid : Nat) (g : Wave → Wave) : (s.updWave wid g).teams = s.teams := rfl
@[simp] theorem State.updWave_waves (s : State) (wid : Nat) (g : Wave → Wave) : (s.updWave wid g).waves = updWhere (·.wid == wid) g s.waves := rfl
@[simp] theorem State.updWave_meres (s : State) (wid : Nat) (g : Wave → Wave) : (s.updWave wid g).meres = s.meres := rfl
@[simp] theorem State.updWave_parcels (s : State) (wid : Nat) (g : Wave → Wave) : (s.updWave wid g).parcels = s.parcels := rfl
@[simp] theorem State.updWave_admission (s : State) (wid : Nat) (g : Wave → Wave) : (s.updWave wid g).admission = s.admission := rfl
@[simp] theorem State.updWave_pacHead (s : State) (wid : Nat) (g : Wave → Wave) : (s.updWave wid g).pacHead = s.pacHead := rfl
@[simp] theorem State.updWave_pacDue (s : State) (wid : Nat) (g : Wave → Wave) : (s.updWave wid g).pacDue = s.pacDue := rfl
@[simp] theorem State.updWave_polders (s : State) (wid : Nat) (g : Wave → Wave) : (s.updWave wid g).polders = s.polders := rfl
@[simp] theorem State.updWave_ending (s : State) (wid : Nat) (g : Wave → Wave) : (s.updWave wid g).ending = s.ending := rfl
@[simp] theorem State.updWave_events (s : State) (wid : Nat) (g : Wave → Wave) : (s.updWave wid g).events = s.events := rfl
@[simp] theorem State.updWave_embargoes (s : State) (wid : Nat) (g : Wave → Wave) : (s.updWave wid g).embargoes = s.embargoes := rfl
@[simp] theorem State.updWave_pool (s : State) (wid : Nat) (g : Wave → Wave) : (s.updWave wid g).pool = s.pool := rfl
@[simp] theorem State.updWave_pendingLaunches (s : State) (wid : Nat) (g : Wave → Wave) : (s.updWave wid g).pendingLaunches = s.pendingLaunches := rfl
@[simp] theorem State.updWave_staging (s : State) (wid : Nat) (g : Wave → Wave) : (s.updWave wid g).staging = s.staging := rfl
@[simp] theorem State.updWave_couriers (s : State) (wid : Nat) (g : Wave → Wave) : (s.updWave wid g).couriers = s.couriers := rfl
@[simp] theorem State.updWave_engines (s : State) (wid : Nat) (g : Wave → Wave) : (s.updWave wid g).engines = s.engines := rfl
@[simp] theorem State.updWave_matrix (s : State) (wid : Nat) (g : Wave → Wave) : (s.updWave wid g).matrix = s.matrix := rfl
@[simp] theorem State.updWave_offices (s : State) (wid : Nat) (g : Wave → Wave) : (s.updWave wid g).offices = s.offices := rfl
@[simp] theorem State.updWave_remotes (s : State) (wid : Nat) (g : Wave → Wave) : (s.updWave wid g).remotes = s.remotes := rfl
@[simp] theorem State.updWave_packets (s : State) (wid : Nat) (g : Wave → Wave) : (s.updWave wid g).packets = s.packets := rfl
@[simp] theorem State.updWave_frames (s : State) (wid : Nat) (g : Wave → Wave) : (s.updWave wid g).frames = s.frames := rfl
@[simp] theorem State.updWave_served (s : State) (wid : Nat) (g : Wave → Wave) : (s.updWave wid g).served = s.served := rfl

/-! ## State.updCtx -/

@[simp] theorem State.updCtx_agenda (s : State) (num : Nat) (g : Context → Context) : (s.updCtx num g).agenda = s.agenda := rfl
@[simp] theorem State.updCtx_cur (s : State) (num : Nat) (g : Context → Context) : (s.updCtx num g).cur = s.cur := rfl
@[simp] theorem State.updCtx_freeCtr (s : State) (num : Nat) (g : Context → Context) : (s.updCtx num g).freeCtr = s.freeCtr := rfl
@[simp] theorem State.updCtx_seq (s : State) (num : Nat) (g : Context → Context) : (s.updCtx num g).seq = s.seq := rfl
@[simp] theorem State.updCtx_marks (s : State) (num : Nat) (g : Context → Context) : (s.updCtx num g).marks = s.marks := rfl
@[simp] theorem State.updCtx_guardWrites (s : State) (num : Nat) (g : Context → Context) : (s.updCtx num g).guardWrites = s.guardWrites := rfl
@[simp] theorem State.updCtx_mem (s : State) (num : Nat) (g : Context → Context) : (s.updCtx num g).mem = s.mem := rfl
@[simp] theorem State.updCtx_poison (s : State) (num : Nat) (g : Context → Context) : (s.updCtx num g).poison = s.poison := rfl
@[simp] theorem State.updCtx_cycles (s : State) (num : Nat) (g : Context → Context) : (s.updCtx num g).cycles = s.cycles := rfl
@[simp] theorem State.updCtx_deviceId (s : State) (num : Nat) (g : Context → Context) : (s.updCtx num g).deviceId = s.deviceId := rfl
@[simp] theorem State.updCtx_lifecycle (s : State) (num : Nat) (g : Context → Context) : (s.updCtx num g).lifecycle = s.lifecycle := rfl
@[simp] theorem State.updCtx_fwsvn (s : State) (num : Nat) (g : Context → Context) : (s.updCtx num g).fwsvn = s.fwsvn := rfl
@[simp] theorem State.updCtx_boots (s : State) (num : Nat) (g : Context → Context) : (s.updCtx num g).boots = s.boots := rfl
@[simp] theorem State.updCtx_boot (s : State) (num : Nat) (g : Context → Context) : (s.updCtx num g).boot = s.boot := rfl
@[simp] theorem State.updCtx_pinBudget (s : State) (num : Nat) (g : Context → Context) : (s.updCtx num g).pinBudget = s.pinBudget := rfl
@[simp] theorem State.updCtx_nocAvoid (s : State) (num : Nat) (g : Context → Context) : (s.updCtx num g).nocAvoid = s.nocAvoid := rfl
@[simp] theorem State.updCtx_ports (s : State) (num : Nat) (g : Context → Context) : (s.updCtx num g).ports = s.ports := rfl
@[simp] theorem State.updCtx_nocDown (s : State) (num : Nat) (g : Context → Context) : (s.updCtx num g).nocDown = s.nocDown := rfl
@[simp] theorem State.updCtx_ecc (s : State) (num : Nat) (g : Context → Context) : (s.updCtx num g).ecc = s.ecc := rfl
@[simp] theorem State.updCtx_pinbyp (s : State) (num : Nat) (g : Context → Context) : (s.updCtx num g).pinbyp = s.pinbyp := rfl
@[simp] theorem State.updCtx_assists (s : State) (num : Nat) (g : Context → Context) : (s.updCtx num g).assists = s.assists := rfl
@[simp] theorem State.updCtx_throttled (s : State) (num : Nat) (g : Context → Context) : (s.updCtx num g).throttled = s.throttled := rfl
@[simp] theorem State.updCtx_outbox (s : State) (num : Nat) (g : Context → Context) : (s.updCtx num g).outbox = s.outbox := rfl
@[simp] theorem State.updCtx_unsent (s : State) (num : Nat) (g : Context → Context) : (s.updCtx num g).unsent = s.unsent := rfl
@[simp] theorem State.updCtx_signatures (s : State) (num : Nat) (g : Context → Context) : (s.updCtx num g).signatures = s.signatures := rfl
@[simp] theorem State.updCtx_keyErased (s : State) (num : Nat) (g : Context → Context) : (s.updCtx num g).keyErased = s.keyErased := rfl
@[simp] theorem State.updCtx_tlb (s : State) (num : Nat) (g : Context → Context) : (s.updCtx num g).tlb = s.tlb := rfl
@[simp] theorem State.updCtx_walks (s : State) (num : Nat) (g : Context → Context) : (s.updCtx num g).walks = s.walks := rfl
@[simp] theorem State.updCtx_l1 (s : State) (num : Nat) (g : Context → Context) : (s.updCtx num g).l1 = s.l1 := rfl
@[simp] theorem State.updCtx_l2 (s : State) (num : Nat) (g : Context → Context) : (s.updCtx num g).l2 = s.l2 := rfl
@[simp] theorem State.updCtx_granuleCtx (s : State) (num : Nat) (g : Context → Context) : (s.updCtx num g).granuleCtx = s.granuleCtx := rfl
@[simp] theorem State.updCtx_granuleLeft (s : State) (num : Nat) (g : Context → Context) : (s.updCtx num g).granuleLeft = s.granuleLeft := rfl
@[simp] theorem State.updCtx_holders (s : State) (num : Nat) (g : Context → Context) : (s.updCtx num g).holders = s.holders := rfl
@[simp] theorem State.updCtx_msgs (s : State) (num : Nat) (g : Context → Context) : (s.updCtx num g).msgs = s.msgs := rfl
@[simp] theorem State.updCtx_deferred (s : State) (num : Nat) (g : Context → Context) : (s.updCtx num g).deferred = s.deferred := rfl
@[simp] theorem State.updCtx_icache (s : State) (num : Nat) (g : Context → Context) : (s.updCtx num g).icache = s.icache := rfl
@[simp] theorem State.updCtx_fetches (s : State) (num : Nat) (g : Context → Context) : (s.updCtx num g).fetches = s.fetches := rfl
@[simp] theorem State.updCtx_mapCache (s : State) (num : Nat) (g : Context → Context) : (s.updCtx num g).mapCache = s.mapCache := rfl
@[simp] theorem State.updCtx_contexts (s : State) (num : Nat) (g : Context → Context) : (s.updCtx num g).contexts = updWhere (·.num == num) g s.contexts := rfl
@[simp] theorem State.updCtx_grids (s : State) (num : Nat) (g : Context → Context) : (s.updCtx num g).grids = s.grids := rfl
@[simp] theorem State.updCtx_teams (s : State) (num : Nat) (g : Context → Context) : (s.updCtx num g).teams = s.teams := rfl
@[simp] theorem State.updCtx_waves (s : State) (num : Nat) (g : Context → Context) : (s.updCtx num g).waves = s.waves := rfl
@[simp] theorem State.updCtx_meres (s : State) (num : Nat) (g : Context → Context) : (s.updCtx num g).meres = s.meres := rfl
@[simp] theorem State.updCtx_parcels (s : State) (num : Nat) (g : Context → Context) : (s.updCtx num g).parcels = s.parcels := rfl
@[simp] theorem State.updCtx_admission (s : State) (num : Nat) (g : Context → Context) : (s.updCtx num g).admission = s.admission := rfl
@[simp] theorem State.updCtx_pacHead (s : State) (num : Nat) (g : Context → Context) : (s.updCtx num g).pacHead = s.pacHead := rfl
@[simp] theorem State.updCtx_pacDue (s : State) (num : Nat) (g : Context → Context) : (s.updCtx num g).pacDue = s.pacDue := rfl
@[simp] theorem State.updCtx_polders (s : State) (num : Nat) (g : Context → Context) : (s.updCtx num g).polders = s.polders := rfl
@[simp] theorem State.updCtx_ending (s : State) (num : Nat) (g : Context → Context) : (s.updCtx num g).ending = s.ending := rfl
@[simp] theorem State.updCtx_events (s : State) (num : Nat) (g : Context → Context) : (s.updCtx num g).events = s.events := rfl
@[simp] theorem State.updCtx_embargoes (s : State) (num : Nat) (g : Context → Context) : (s.updCtx num g).embargoes = s.embargoes := rfl
@[simp] theorem State.updCtx_pool (s : State) (num : Nat) (g : Context → Context) : (s.updCtx num g).pool = s.pool := rfl
@[simp] theorem State.updCtx_pendingLaunches (s : State) (num : Nat) (g : Context → Context) : (s.updCtx num g).pendingLaunches = s.pendingLaunches := rfl
@[simp] theorem State.updCtx_staging (s : State) (num : Nat) (g : Context → Context) : (s.updCtx num g).staging = s.staging := rfl
@[simp] theorem State.updCtx_couriers (s : State) (num : Nat) (g : Context → Context) : (s.updCtx num g).couriers = s.couriers := rfl
@[simp] theorem State.updCtx_engines (s : State) (num : Nat) (g : Context → Context) : (s.updCtx num g).engines = s.engines := rfl
@[simp] theorem State.updCtx_matrix (s : State) (num : Nat) (g : Context → Context) : (s.updCtx num g).matrix = s.matrix := rfl
@[simp] theorem State.updCtx_offices (s : State) (num : Nat) (g : Context → Context) : (s.updCtx num g).offices = s.offices := rfl
@[simp] theorem State.updCtx_remotes (s : State) (num : Nat) (g : Context → Context) : (s.updCtx num g).remotes = s.remotes := rfl
@[simp] theorem State.updCtx_packets (s : State) (num : Nat) (g : Context → Context) : (s.updCtx num g).packets = s.packets := rfl
@[simp] theorem State.updCtx_frames (s : State) (num : Nat) (g : Context → Context) : (s.updCtx num g).frames = s.frames := rfl
@[simp] theorem State.updCtx_served (s : State) (num : Nat) (g : Context → Context) : (s.updCtx num g).served = s.served := rfl

/-! ## State.updGrid -/

@[simp] theorem State.updGrid_agenda (s : State) (gid : Nat) (g : Grid → Grid) : (s.updGrid gid g).agenda = s.agenda := rfl
@[simp] theorem State.updGrid_cur (s : State) (gid : Nat) (g : Grid → Grid) : (s.updGrid gid g).cur = s.cur := rfl
@[simp] theorem State.updGrid_freeCtr (s : State) (gid : Nat) (g : Grid → Grid) : (s.updGrid gid g).freeCtr = s.freeCtr := rfl
@[simp] theorem State.updGrid_seq (s : State) (gid : Nat) (g : Grid → Grid) : (s.updGrid gid g).seq = s.seq := rfl
@[simp] theorem State.updGrid_marks (s : State) (gid : Nat) (g : Grid → Grid) : (s.updGrid gid g).marks = s.marks := rfl
@[simp] theorem State.updGrid_guardWrites (s : State) (gid : Nat) (g : Grid → Grid) : (s.updGrid gid g).guardWrites = s.guardWrites := rfl
@[simp] theorem State.updGrid_mem (s : State) (gid : Nat) (g : Grid → Grid) : (s.updGrid gid g).mem = s.mem := rfl
@[simp] theorem State.updGrid_poison (s : State) (gid : Nat) (g : Grid → Grid) : (s.updGrid gid g).poison = s.poison := rfl
@[simp] theorem State.updGrid_cycles (s : State) (gid : Nat) (g : Grid → Grid) : (s.updGrid gid g).cycles = s.cycles := rfl
@[simp] theorem State.updGrid_deviceId (s : State) (gid : Nat) (g : Grid → Grid) : (s.updGrid gid g).deviceId = s.deviceId := rfl
@[simp] theorem State.updGrid_lifecycle (s : State) (gid : Nat) (g : Grid → Grid) : (s.updGrid gid g).lifecycle = s.lifecycle := rfl
@[simp] theorem State.updGrid_fwsvn (s : State) (gid : Nat) (g : Grid → Grid) : (s.updGrid gid g).fwsvn = s.fwsvn := rfl
@[simp] theorem State.updGrid_boots (s : State) (gid : Nat) (g : Grid → Grid) : (s.updGrid gid g).boots = s.boots := rfl
@[simp] theorem State.updGrid_boot (s : State) (gid : Nat) (g : Grid → Grid) : (s.updGrid gid g).boot = s.boot := rfl
@[simp] theorem State.updGrid_pinBudget (s : State) (gid : Nat) (g : Grid → Grid) : (s.updGrid gid g).pinBudget = s.pinBudget := rfl
@[simp] theorem State.updGrid_nocAvoid (s : State) (gid : Nat) (g : Grid → Grid) : (s.updGrid gid g).nocAvoid = s.nocAvoid := rfl
@[simp] theorem State.updGrid_ports (s : State) (gid : Nat) (g : Grid → Grid) : (s.updGrid gid g).ports = s.ports := rfl
@[simp] theorem State.updGrid_nocDown (s : State) (gid : Nat) (g : Grid → Grid) : (s.updGrid gid g).nocDown = s.nocDown := rfl
@[simp] theorem State.updGrid_ecc (s : State) (gid : Nat) (g : Grid → Grid) : (s.updGrid gid g).ecc = s.ecc := rfl
@[simp] theorem State.updGrid_pinbyp (s : State) (gid : Nat) (g : Grid → Grid) : (s.updGrid gid g).pinbyp = s.pinbyp := rfl
@[simp] theorem State.updGrid_assists (s : State) (gid : Nat) (g : Grid → Grid) : (s.updGrid gid g).assists = s.assists := rfl
@[simp] theorem State.updGrid_throttled (s : State) (gid : Nat) (g : Grid → Grid) : (s.updGrid gid g).throttled = s.throttled := rfl
@[simp] theorem State.updGrid_outbox (s : State) (gid : Nat) (g : Grid → Grid) : (s.updGrid gid g).outbox = s.outbox := rfl
@[simp] theorem State.updGrid_unsent (s : State) (gid : Nat) (g : Grid → Grid) : (s.updGrid gid g).unsent = s.unsent := rfl
@[simp] theorem State.updGrid_signatures (s : State) (gid : Nat) (g : Grid → Grid) : (s.updGrid gid g).signatures = s.signatures := rfl
@[simp] theorem State.updGrid_keyErased (s : State) (gid : Nat) (g : Grid → Grid) : (s.updGrid gid g).keyErased = s.keyErased := rfl
@[simp] theorem State.updGrid_tlb (s : State) (gid : Nat) (g : Grid → Grid) : (s.updGrid gid g).tlb = s.tlb := rfl
@[simp] theorem State.updGrid_walks (s : State) (gid : Nat) (g : Grid → Grid) : (s.updGrid gid g).walks = s.walks := rfl
@[simp] theorem State.updGrid_l1 (s : State) (gid : Nat) (g : Grid → Grid) : (s.updGrid gid g).l1 = s.l1 := rfl
@[simp] theorem State.updGrid_l2 (s : State) (gid : Nat) (g : Grid → Grid) : (s.updGrid gid g).l2 = s.l2 := rfl
@[simp] theorem State.updGrid_granuleCtx (s : State) (gid : Nat) (g : Grid → Grid) : (s.updGrid gid g).granuleCtx = s.granuleCtx := rfl
@[simp] theorem State.updGrid_granuleLeft (s : State) (gid : Nat) (g : Grid → Grid) : (s.updGrid gid g).granuleLeft = s.granuleLeft := rfl
@[simp] theorem State.updGrid_holders (s : State) (gid : Nat) (g : Grid → Grid) : (s.updGrid gid g).holders = s.holders := rfl
@[simp] theorem State.updGrid_msgs (s : State) (gid : Nat) (g : Grid → Grid) : (s.updGrid gid g).msgs = s.msgs := rfl
@[simp] theorem State.updGrid_deferred (s : State) (gid : Nat) (g : Grid → Grid) : (s.updGrid gid g).deferred = s.deferred := rfl
@[simp] theorem State.updGrid_icache (s : State) (gid : Nat) (g : Grid → Grid) : (s.updGrid gid g).icache = s.icache := rfl
@[simp] theorem State.updGrid_fetches (s : State) (gid : Nat) (g : Grid → Grid) : (s.updGrid gid g).fetches = s.fetches := rfl
@[simp] theorem State.updGrid_mapCache (s : State) (gid : Nat) (g : Grid → Grid) : (s.updGrid gid g).mapCache = s.mapCache := rfl
@[simp] theorem State.updGrid_contexts (s : State) (gid : Nat) (g : Grid → Grid) : (s.updGrid gid g).contexts = s.contexts := rfl
@[simp] theorem State.updGrid_grids (s : State) (gid : Nat) (g : Grid → Grid) : (s.updGrid gid g).grids = updWhere (·.gid == gid) g s.grids := rfl
@[simp] theorem State.updGrid_teams (s : State) (gid : Nat) (g : Grid → Grid) : (s.updGrid gid g).teams = s.teams := rfl
@[simp] theorem State.updGrid_waves (s : State) (gid : Nat) (g : Grid → Grid) : (s.updGrid gid g).waves = s.waves := rfl
@[simp] theorem State.updGrid_meres (s : State) (gid : Nat) (g : Grid → Grid) : (s.updGrid gid g).meres = s.meres := rfl
@[simp] theorem State.updGrid_parcels (s : State) (gid : Nat) (g : Grid → Grid) : (s.updGrid gid g).parcels = s.parcels := rfl
@[simp] theorem State.updGrid_admission (s : State) (gid : Nat) (g : Grid → Grid) : (s.updGrid gid g).admission = s.admission := rfl
@[simp] theorem State.updGrid_pacHead (s : State) (gid : Nat) (g : Grid → Grid) : (s.updGrid gid g).pacHead = s.pacHead := rfl
@[simp] theorem State.updGrid_pacDue (s : State) (gid : Nat) (g : Grid → Grid) : (s.updGrid gid g).pacDue = s.pacDue := rfl
@[simp] theorem State.updGrid_polders (s : State) (gid : Nat) (g : Grid → Grid) : (s.updGrid gid g).polders = s.polders := rfl
@[simp] theorem State.updGrid_ending (s : State) (gid : Nat) (g : Grid → Grid) : (s.updGrid gid g).ending = s.ending := rfl
@[simp] theorem State.updGrid_events (s : State) (gid : Nat) (g : Grid → Grid) : (s.updGrid gid g).events = s.events := rfl
@[simp] theorem State.updGrid_embargoes (s : State) (gid : Nat) (g : Grid → Grid) : (s.updGrid gid g).embargoes = s.embargoes := rfl
@[simp] theorem State.updGrid_pool (s : State) (gid : Nat) (g : Grid → Grid) : (s.updGrid gid g).pool = s.pool := rfl
@[simp] theorem State.updGrid_pendingLaunches (s : State) (gid : Nat) (g : Grid → Grid) : (s.updGrid gid g).pendingLaunches = s.pendingLaunches := rfl
@[simp] theorem State.updGrid_staging (s : State) (gid : Nat) (g : Grid → Grid) : (s.updGrid gid g).staging = s.staging := rfl
@[simp] theorem State.updGrid_couriers (s : State) (gid : Nat) (g : Grid → Grid) : (s.updGrid gid g).couriers = s.couriers := rfl
@[simp] theorem State.updGrid_engines (s : State) (gid : Nat) (g : Grid → Grid) : (s.updGrid gid g).engines = s.engines := rfl
@[simp] theorem State.updGrid_matrix (s : State) (gid : Nat) (g : Grid → Grid) : (s.updGrid gid g).matrix = s.matrix := rfl
@[simp] theorem State.updGrid_offices (s : State) (gid : Nat) (g : Grid → Grid) : (s.updGrid gid g).offices = s.offices := rfl
@[simp] theorem State.updGrid_remotes (s : State) (gid : Nat) (g : Grid → Grid) : (s.updGrid gid g).remotes = s.remotes := rfl
@[simp] theorem State.updGrid_packets (s : State) (gid : Nat) (g : Grid → Grid) : (s.updGrid gid g).packets = s.packets := rfl
@[simp] theorem State.updGrid_frames (s : State) (gid : Nat) (g : Grid → Grid) : (s.updGrid gid g).frames = s.frames := rfl
@[simp] theorem State.updGrid_served (s : State) (gid : Nat) (g : Grid → Grid) : (s.updGrid gid g).served = s.served := rfl

/-! ## State.tick -/

@[simp] theorem State.tick_agenda (s : State) : (s.tick).agenda = s.agenda := rfl
@[simp] theorem State.tick_cur (s : State) : (s.tick).cur = s.cur := rfl
@[simp] theorem State.tick_freeCtr (s : State) : (s.tick).freeCtr = s.freeCtr := rfl
@[simp] theorem State.tick_seq (s : State) : (s.tick).seq = s.seq + 1 := rfl
@[simp] theorem State.tick_marks (s : State) : (s.tick).marks = s.marks := rfl
@[simp] theorem State.tick_guardWrites (s : State) : (s.tick).guardWrites = s.guardWrites := rfl
@[simp] theorem State.tick_mem (s : State) : (s.tick).mem = s.mem := rfl
@[simp] theorem State.tick_poison (s : State) : (s.tick).poison = s.poison := rfl
@[simp] theorem State.tick_cycles (s : State) : (s.tick).cycles = s.cycles := rfl
@[simp] theorem State.tick_deviceId (s : State) : (s.tick).deviceId = s.deviceId := rfl
@[simp] theorem State.tick_lifecycle (s : State) : (s.tick).lifecycle = s.lifecycle := rfl
@[simp] theorem State.tick_fwsvn (s : State) : (s.tick).fwsvn = s.fwsvn := rfl
@[simp] theorem State.tick_boots (s : State) : (s.tick).boots = s.boots := rfl
@[simp] theorem State.tick_boot (s : State) : (s.tick).boot = s.boot := rfl
@[simp] theorem State.tick_pinBudget (s : State) : (s.tick).pinBudget = s.pinBudget := rfl
@[simp] theorem State.tick_nocAvoid (s : State) : (s.tick).nocAvoid = s.nocAvoid := rfl
@[simp] theorem State.tick_ports (s : State) : (s.tick).ports = s.ports := rfl
@[simp] theorem State.tick_nocDown (s : State) : (s.tick).nocDown = s.nocDown := rfl
@[simp] theorem State.tick_ecc (s : State) : (s.tick).ecc = s.ecc := rfl
@[simp] theorem State.tick_pinbyp (s : State) : (s.tick).pinbyp = s.pinbyp := rfl
@[simp] theorem State.tick_assists (s : State) : (s.tick).assists = s.assists := rfl
@[simp] theorem State.tick_throttled (s : State) : (s.tick).throttled = s.throttled := rfl
@[simp] theorem State.tick_outbox (s : State) : (s.tick).outbox = s.outbox := rfl
@[simp] theorem State.tick_unsent (s : State) : (s.tick).unsent = s.unsent := rfl
@[simp] theorem State.tick_signatures (s : State) : (s.tick).signatures = s.signatures := rfl
@[simp] theorem State.tick_keyErased (s : State) : (s.tick).keyErased = s.keyErased := rfl
@[simp] theorem State.tick_tlb (s : State) : (s.tick).tlb = s.tlb := rfl
@[simp] theorem State.tick_walks (s : State) : (s.tick).walks = s.walks := rfl
@[simp] theorem State.tick_l1 (s : State) : (s.tick).l1 = s.l1 := rfl
@[simp] theorem State.tick_l2 (s : State) : (s.tick).l2 = s.l2 := rfl
@[simp] theorem State.tick_granuleCtx (s : State) : (s.tick).granuleCtx = s.granuleCtx := rfl
@[simp] theorem State.tick_granuleLeft (s : State) : (s.tick).granuleLeft = s.granuleLeft := rfl
@[simp] theorem State.tick_holders (s : State) : (s.tick).holders = s.holders := rfl
@[simp] theorem State.tick_msgs (s : State) : (s.tick).msgs = s.msgs := rfl
@[simp] theorem State.tick_deferred (s : State) : (s.tick).deferred = s.deferred := rfl
@[simp] theorem State.tick_icache (s : State) : (s.tick).icache = s.icache := rfl
@[simp] theorem State.tick_fetches (s : State) : (s.tick).fetches = s.fetches := rfl
@[simp] theorem State.tick_mapCache (s : State) : (s.tick).mapCache = s.mapCache := rfl
@[simp] theorem State.tick_contexts (s : State) : (s.tick).contexts = s.contexts := rfl
@[simp] theorem State.tick_grids (s : State) : (s.tick).grids = s.grids := rfl
@[simp] theorem State.tick_teams (s : State) : (s.tick).teams = s.teams := rfl
@[simp] theorem State.tick_waves (s : State) : (s.tick).waves = s.waves := rfl
@[simp] theorem State.tick_meres (s : State) : (s.tick).meres = s.meres := rfl
@[simp] theorem State.tick_parcels (s : State) : (s.tick).parcels = s.parcels := rfl
@[simp] theorem State.tick_admission (s : State) : (s.tick).admission = s.admission := rfl
@[simp] theorem State.tick_pacHead (s : State) : (s.tick).pacHead = s.pacHead := rfl
@[simp] theorem State.tick_pacDue (s : State) : (s.tick).pacDue = s.pacDue := rfl
@[simp] theorem State.tick_polders (s : State) : (s.tick).polders = s.polders := rfl
@[simp] theorem State.tick_ending (s : State) : (s.tick).ending = s.ending := rfl
@[simp] theorem State.tick_events (s : State) : (s.tick).events = s.events := rfl
@[simp] theorem State.tick_embargoes (s : State) : (s.tick).embargoes = s.embargoes := rfl
@[simp] theorem State.tick_pool (s : State) : (s.tick).pool = s.pool := rfl
@[simp] theorem State.tick_pendingLaunches (s : State) : (s.tick).pendingLaunches = s.pendingLaunches := rfl
@[simp] theorem State.tick_staging (s : State) : (s.tick).staging = s.staging := rfl
@[simp] theorem State.tick_couriers (s : State) : (s.tick).couriers = s.couriers := rfl
@[simp] theorem State.tick_engines (s : State) : (s.tick).engines = s.engines := rfl
@[simp] theorem State.tick_matrix (s : State) : (s.tick).matrix = s.matrix := rfl
@[simp] theorem State.tick_offices (s : State) : (s.tick).offices = s.offices := rfl
@[simp] theorem State.tick_remotes (s : State) : (s.tick).remotes = s.remotes := rfl
@[simp] theorem State.tick_packets (s : State) : (s.tick).packets = s.packets := rfl
@[simp] theorem State.tick_frames (s : State) : (s.tick).frames = s.frames := rfl
@[simp] theorem State.tick_served (s : State) : (s.tick).served = s.served := rfl

end Sys2Proof.Machine
end

