-- ==== Sys2Proof/Tests/Slice0.lean ====
section
/-! SUPPORT. Tests: ill-formed terms, words written out from the spec, single steps on a small state, and for each obligation
with hypotheses a concrete case that meets them. -/

set_option Elab.async false

open Sys2Proof Sys2Proof.Machine

namespace Sys2Proof.Tests

/-! ## Well-formedness: one ill-formed term for each check -/

theorem test_wf_good : (Instr.iadd { mods := { ty := .i32 }, d := .v 1, a := .v 2, b := .lit 3 }).wf = true := by decide +kernel

/-- lengthOk: a two-word instruction has no C, no X21, no L32; a three-word one no L32 (R195). -/
theorem test_wf_length :
    [Instr.iadd { mods := { ty := .i32 }, d := .v 1, a := .v 2, b := .lit 3, c := .v 4 },
     .iadd { mods := { ty := .i32 }, d := .v 1, a := .v 2, b := .lit 3, x21 := 1 },
     .iadd { mods := { ty := .i32 }, d := .v 1, a := .v 2, b := .lit 3, l32 := 1 },
     .bra { x21 := 9, l32 := 1 }].map Instr.wf = [false, false, false, false] := by decide +kernel

/-- modifiersOk: FN, MOD outside the group, a type, a modifier, X21 (R208 to R212). -/
theorem test_wf_modifiers :
    [Instr.icmp { fn := 6, mods := { ty := .i32 }, d := .lit 1, a := .v 1, b := .v 2 },
     .iadd { mods := { ty := .i32, rnd := .rz }, d := .v 1, a := .v 2, b := .lit 3 },
     .iadd { mods := { ty := .f32 }, d := .v 1, a := .v 2, b := .lit 3 },
     .fence { mods := { sc := .pk } },
     .lop3 { mods := { ty := .b32 }, d := .v 1, a := .v 2, b := .v 3, c := .v 4, x21 := 256 }].map Instr.wf
      = [false, false, false, false, false] := by decide +kernel

/-- operandsOk: a constant as destination, an unused field that is not 0x600, an odd pair, a read-only handler register, a special
register as destination (R197 to R201, R243). -/
theorem test_wf_operands :
    [Instr.iadd { mods := { ty := .i32 }, d := .k 1, a := .v 2, b := .lit 3 },
     .mov { mods := { ty := .b32 }, d := .v 1, a := .v 2, b := .lit 3 },
     .mov { mods := { ty := .b64 }, d := .v 1, a := .v 2 },
     .swreg { a := .lit 1, b := .v 2 },
     .mov { mods := { ty := .b32 }, d := .sr .threadId, a := .v 2 }].map Instr.wf
      = [false, false, false, false, false] := by decide +kernel

/-- trapretFnOk: TRAPRET's row is its FN (R212). -/
theorem test_wf_trapret : (Instr.trapretSkip { fn := 1 }).wf = false ∧ (Instr.trapretSkip { fn := 2 }).wf = true := by
  decide +kernel

/-! ## Decoding: words written out from the spec's encodings and examples, the first 32 bits lowest -/

def reads (w : Nat) (i : Instr) (bytes : Nat) : Bool := (decodeAt 0 w).toOption == some (i, bytes)

/-- R195 to R201: NOP with every unused operand field 0x600; EXIT; the guard P1 on BRA with X21 = 9. -/
theorem test_decode_control :
    reads 0x0006_00C0_1800_3800 (.nop {}) 8 = true ∧ reads 0x0006_00C0_1800_3830 (.exit {}) 8 = true ∧
    reads 0x0000_4E00_0006_00C0_1800_0809 (.bra { guard := .pred 1 false, x21 := 9 }) 12 = true := by decide +kernel

/-- IADD.I32 V1, V2, #3 bit by bit: LEN 0, OP 0x20 at 3, guard 7 at 11, D 1 at 18, A 2 at 29, B 0x603 at 40, TY 4 at 59. -/
theorem test_decode_integer :
    reads (0x20 * 2 ^ 3 + 7 * 2 ^ 11 + 1 * 2 ^ 18 + 2 * 2 ^ 29 + 0x603 * 2 ^ 40 + 4 * 2 ^ 59)
      (.iadd { mods := { ty := .i32 }, d := .v 1, a := .v 2, b := .lit 3 }) 8 = true ∧
    reads 0x4006_0000_3804_B960 (.icmp { fn := 1, mods := { ty := .n32 }, d := .lit 1, a := .v 1, b := .lit 0 }) 8 = true := by
  decide +kernel

/-- FADD.F32.RN V12, V3, #-5, the example of R195's chapter. -/
theorem test_decode_float :
    reads 0x5807_FB00_6030_3B00 (.fadd { mods := { ty := .f32 }, d := .v 12, a := .v 3, b := .lit (-5) }) 8 = true := by
  decide +kernel

/-- LD.B32.G.M V8, S4, 256: three words, X21 = 256, the marker. -/
theorem test_decode_memory :
    reads 0x0008_0600_0006_0040_8020_3C05
      (.ld { marker := true, mods := { ty := .b32 }, d := .v 8, a := .s 4, x21 := 256 }) 12 = true := by decide +kernel

/-- CPY with L32 unused, PENTER.M, FENCE.ACQ.PK, LAUNCH V8, K4, JOIN K2, AMSG. -/
theorem test_decode_system :
    (decodeAt 0 0x9802_000E_4020_0C01_5800_3D49).toOption.map (fun r => (r.1.opFields.map (·.1), r.2)) = some (some 0xA9, 12) ∧
    (decodeAt 0 0x003F_FFFF_0000_0D01_8078_3D0D).toOption.map (fun r => (r.1.opFields.map (·.1), r.2)) = some (some 0xA1, 12) ∧
    reads 0x0306_00C0_1800_3C40 (.fence { mods := { ord := .acq, sc := .pk } }) 8 = true ∧
    reads 0x0006_0080_8020_3F10 (.launch { d := .v 8, a := .k 4 }) 8 = true ∧
    reads 0x0006_0080_5800_3F20 (.join { a := .k 2 }) 8 = true ∧
    (decodeAt 0 0x0000_880E_0000_0C01_5800_3F89).toOption.map (fun r => (r.1.opFields.map (·.1), r.2)) = some (some 0xF1, 12) := by
  decide +kernel

/-! ## A small state: two threads of one team at a mapped address -/

def thread (tid : Nat) : Thread := { tid, pc := 0x10000 }

/-- The threads are the wave's lanes 0 and up; the context's handler stands at 0x10100. -/
def base (ths : List Thread) : State :=
  let s := State.reset.place 0
  { s with
    agenda := [], cur := s.seq - 1
    contexts := s.contexts.map fun c => { c with trapEntry := 0x10100 }
    teams := s.teams.map fun t => { t with threads := ths }
    waves := s.waves.map fun w => { w with lanes := ths.map fun th => (th.tid, th.tid) } }

def two : State := base [thread 0, thread 1]

/-- The state after an outcome that is a next state. -/
def after (o : Host.Outcome State Fault Refusal) : Option State :=
  match o with
  | .next t => some t
  | _ => none

/-- An instruction executes, its issue meeting a test. -/
def Meets (s : State) (op : Nat) (f : Fields) (p : Issue → Bool) : Prop := ∃ x, s.Runs op f x ∧ p x = true

theorem meets {s : State} {op : Nat} {f : Fields} {p : Issue → Bool}
    (h : ((s.issue? op f).any fun x => decide (State.issueErr x.team x.wave op f = none ∧ x.wave.waiting = false) && p x) = true) :
    Meets s op f p := by
  obtain ⟨x, hx, h⟩ := (Option.any_eq_true ..).mp h
  simp only [Bool.and_eq_true, decide_eq_true_eq] at h
  exact ⟨x, ⟨hx, h.1⟩, h.2⟩

def yes (_ : Issue) : Bool := true

/-! ## Single steps. The expected values are worked out by hand from the rules named -/

def uid : Nat := 2

def reg (o : Host.Outcome State Fault Refusal) (tid i : Nat) : Option Nat := ((after o).bind fun t => t.vreg uid tid i).map (·.toNat)

def one (v : List (Nat × Word)) : State := base [{ thread 0 with v }]

/-- R244: 2^32 - 1 + 3 wraps to 2, the source being the destination. -/
theorem test_iadd_wraps :
    reg (exec (.iadd { mods := { ty := .i32 }, d := .v 2, a := .v 2, b := .lit 3 }) (one [(2, 0xFFFFFFFF)])) 0 2 = some 2 := by
  decide +kernel

/-- R244: 1 - 3 unsigned saturates at 0. -/
theorem test_isub_saturates :
    reg (exec (.isub { mods := { ty := .n32, sat := true }, d := .v 1, a := .v 2, b := .lit 3 }) (one [(1, 9), (2, 1)])) 0 1
      = some 0 := by decide +kernel

/-- R244: the high half of -2^31 * 2 is -1. -/
theorem test_imulh_signed :
    reg (exec (.imulh { mods := { ty := .i32 }, d := .v 1, a := .v 2, b := .lit 2 }) (one [(2, 0x80000000)])) 0 1
      = some 0xFFFFFFFF := by decide +kernel

/-- R248: an arithmetic shift by 40 leaves the sign in every bit. -/
theorem test_shra_far :
    reg (exec (.shra { mods := { ty := .b32 }, d := .v 1, a := .v 2, b := .lit 40 }) (one [(2, 0x80000000)])) 0 1
      = some 0xFFFFFFFF := by decide +kernel

/-- R249: the signed field of bits 7 to 4 of 0x80 is -8. -/
theorem test_bfe_signed :
    reg (exec (.bfe { mods := { ty := .i32 }, d := .v 1, a := .v 2, b := .v 3 }) (one [(2, 0x80), (3, 0x404)])) 0 1
      = some 0xFFFFFFF8 := by decide +kernel

/-- R182, R261: 1 + 2^-24 ties to even, 1. -/
theorem test_fadd_ties_even :
    reg (exec (.fadd { mods := { ty := .f32 }, d := .v 1, a := .v 2, b := .v 3 }) (one [(2, 0x3F800000), (3, 0x33800000)])) 0 1
      = some 0x3F800000 := by decide +kernel

/-- R261: (1 + 2^-12)^2 - 1 with one rounding keeps the last term: 2^-11 + 2^-24. -/
theorem test_fma_rounds_once :
    reg (exec (.fma { mods := { ty := .f32 }, d := .v 1, a := .v 2, b := .v 2, c := .lit (-1) }) (one [(2, 0x3F800800)])) 0 1
      = some 0x3A000400 := by decide +kernel

/-- R256, R207: two participants, both with the predicate set; the result is outstanding. -/
theorem test_ballot_two :
    (after (exec (.ballot { d := .v 1, a := .lit 0 }) (base [{ thread 0 with p := 1 }, { thread 1 with p := 1 }]))).map
      (fun t => (t.pending uid 1).map (·.writes)) = some [[⟨.v 1, 3⟩]] := by decide +kernel

/-- R159, R239: thread 1's guard fails; each thread has its own next address, in a wave of its own. -/
theorem test_bra_divides :
    (after (exec (.bra { guard := .pred 1 false, x21 := 9 }) (base [{ thread 0 with p := 2 }, thread 1]))).map
      (fun t => (t.waves.map (·.lanes), t.teams.map fun tm => tm.threads.map (·.pc.toNat)))
      = some ([[(0, 0)], [(1, 1)]], [[0x10024, 0x1000C]]) := by decide +kernel

/-- R25, R278: the lowest byte of the datum at the lowest address. -/
theorem test_st_local_order :
    ((after (exec (.st { fn := 1, mods := { ty := .b32 }, a := .v 4, b := .v 2, x21 := 8 }) (one [(2, 0xAABBCCDD)]))).bind
      fun t => (t.team? uid).map fun tm => (tm.locBytes 8 4).map (·.toNat)) = some [0xDD, 0xCC, 0xBB, 0xAA] := by decide +kernel

/-- R118, R278: a store to global memory leaves its core for its L1 slice; memory is as before. -/
theorem test_st_global_leaves :
    (after (exec (.st { mods := { ty := .b32 }, a := .v 4, b := .v 2 }) (one [(2, 0x11), (4, 0x10000)]))).map
      (fun t => (t.msgs.map fun m => (m.line, m.what), Memory.num t.mem 0x40000 4))
      = some ([(0x800, .toL1 [(0x40000, 0x11), (0x40001, 0), (0x40002, 0), (0x40003, 0)] true)], 0) := by decide +kernel

/-- R274: a misaligned atomic traps before anything else. -/
theorem test_atom_misaligned :
    ((after (exec (.atom { mods := { ty := .n32 }, d := .v 1, a := .v 4, b := .v 2 }) (one [(4, 0x10002)]))).bind
      fun t => t.thread? uid 0).map (fun th => (th.pc.toNat, th.trapCause.toNat % 256)) = some (0x10100, 4) := by decide +kernel

/-- R241, R371: TRAP saves the address, the cause with OWN, and OPA. -/
theorem test_trap_entry :
    ((after (exec (.trap { a := .lit 5 }) (one []))).bind fun t => t.thread? uid 0).map
      (fun th => (th.pc.toNat, th.trapPc.toNat, th.trapCause.toNat, th.trapInfo.toNat, th.handler))
      = some (0x10100, 0x10000, 0x109, 5, true) := by decide +kernel

/-- R213 check 6: SREG outside a handler. -/
theorem test_sreg_privilege :
    ((after (exec (.sreg { d := .v 2, a := .lit 0 }) (one []))).bind fun t => t.thread? uid 0).map
      (fun th => (th.trapCause.toNat % 256, th.trapInfo.toNat)) = some (0x0A, 0) := by decide +kernel

/-- R242: TRAPRET.RESUME clears the two low bits of RESUMEPC. -/
theorem test_trapret_resume :
    ((after (exec (.trapretResume {}) (base [{ thread 0 with handler := true, trapCause := 0x109, resumePc := 0x10023 }]))).bind
      fun t => t.thread? uid 0).map (fun th => (th.pc.toNat, th.handler)) = some (0x10020, false) := by decide +kernel

/-- R165: one of two threads arrives at barrier 3. -/
theorem test_bara_counts :
    ((after (exec (.bara { guard := .pred 0 false, a := .lit 3 }) (base [{ thread 0 with p := 1 }, thread 1]))).bind
      fun t => t.team? uid).map (fun tm => ((tm.barrier 3).count, (tm.barrier 3).phase)) = some (1, 0) := by decide +kernel

/-- R331: bit 65 of the 256 is bit 1 of word 1. -/
theorem test_evset_word :
    (after (exec (.evset { a := .lit 1, b := .lit 2 }) (one []))).map (fun t => (t.evBits 0 1).toNat) = some (2 ^ 65) := by
  decide +kernel

/-- R335: SOFPUT adds an entry and answers 0 with the write-back to come. -/
theorem test_sofput_entry :
    (after (exec (.sofput { d := .v 1, a := .v 2, b := .v 4, c := .lit 0 }) (one [(2, 7), (4, 9)]))).map
      (fun t => t.offices.map fun e => (e.ctx, e.key, e.payload)) = some [(1, 7, 9)] := by decide +kernel

/-- R196, R156: the machine fetches NOP where the wave stands and goes on at the next word. -/
theorem test_step_fetches :
    ((after (step (State.reset.withFetchWord 64 0x0006_00C0_1800_3800))).bind fun t => t.thread? uid 0).map (·.pc.toNat)
      = some 0x10008 := by decide +kernel

/-- R213: an opcode that no instruction has traps with ILLEGAL_OPCODE; the context, whose TRAPENTRY is 0, is killed. -/
theorem test_step_illegal :
    (after (step (State.reset.withFetchWord 64 (0x10 * 8)))).map (fun t => t.contexts.map Context.dying) = some [true] := by
  decide +kernel

/-- R393 to R395, R46: PIN_BUDGET 5 on port 2 is answered with status 0. -/
theorem test_pin_budget :
    (after (exec (.pinBudget ⟨7, 0, 2, 6⟩ [5, 0, 0, 0]) State.reset)).map (fun t => (t.pinBudget, t.outbox))
      = some (5, [⟨2, 6, 0, 7, 9, 0, []⟩]) := by decide +kernel

/-! ## For each obligation with hypotheses, a case that meets them -/

/-- Every instruction of a list executes in a state. -/
def allMeet (s : State) (l : List (Nat × Fields)) : Bool :=
  l.all fun p => (s.issue? p.1 p.2).any fun x => decide (State.issueErr x.team x.wave p.1 p.2 = none ∧ x.wave.waiting = false) && yes x

theorem all_meet {s : State} {l : List (Nat × Fields)} (h : allMeet s l = true) : ∀ p ∈ l, Meets s p.1 p.2 yes :=
  fun p hp => meets (List.all_eq_true.mp h p hp)

def ops (lo n : Nat) (f : Fields) : List (Nat × Fields) := (iota lo n).map fun op => (op, f)

def fi : Fields := { mods := { ty := .i32 }, d := .v 1, a := .v 2, b := .v 3, c := .v 4 }
def fb : Fields := { mods := { ty := .b64 }, d := .v 2, a := .v 4, b := .v 6, c := .v 8 }
def ff : Fields := { mods := { ty := .f32, src := .f16 }, d := .v 4, a := .v 8, b := .v 12, c := .v 16 }

theorem test_witness_EncodeDecode : isaInstr (.iadd fi) = true ∧ (Instr.iadd { fi with c := .unused }).wf = true := by decide +kernel

theorem test_witness_DecodeEncode : (decodeAt 24 0x0006_00C0_1800_3800).toOption = some (.nop {}, 8) := by decide +kernel

/-- At the last byte where the word would fit and at the first where it does not; an opcode that is none; one of another length;
a guard code that is none. -/
theorem test_witness_DecodeRefusals :
    (0xFFFFFFFF % 4 = 3) ∧ (0x1800_3800 % 4 = 0 ∧ 32 < 28 + 4 * (0 + 2)) ∧ form 0x10 = none ∧
    ((form 0x20).any fun fm => fm.words ≠ 3) = true ∧
    (match decodeAt 24 (0x20 * 8 + 15 * 2 ^ 11) with | .error e => e.field == 2 | .ok _ => false) = true ∧
    (let e : DecErr := ⟨11, 0xF5, 11, 2 ^ 32 - 1⟩; e.detail < 256 ∧ e.op < 256 ∧ e.field < 16 ∧ e.word < 2 ^ 32) := by
  decide +kernel

theorem test_witness_MemoryStaysCanonical :
    (State.reset.withFetchWord 64 0x0006_00C0_1800_3800).Inv ∧
    (after (step (State.reset.withFetchWord 64 0x0006_00C0_1800_3800))).isSome = true := by
  constructor
  · show Memory.wf _ = true
    decide +kernel
  · decide +kernel

/-- NOP placed at the start of a block, and a pad word in front of it. -/
theorem test_witness_StepRunsDecoded :
    (let s := State.reset.withFetchWord 64 0x0006_00C0_1800_3800
     let s' := ({ s with agenda := [], freeCtr := 1 } : State).pass []
     ((s'.wave? 3).any fun w => s'.mayIssue w && (s'.team? w.uid).any fun t => (t.active w).all fun l => !l.2.overrun) = true ∧
     (match { s' with cur := 3 }.fetchBlock 1 0 0x10000 with
      | .ok d _ => decide (blockFrom d 0 % 2 ^ 32 ≠ 3) && (decodeAt 0 (blockFrom d 0)).toOption.isSome
          && (match s'.translate (.die 0) 1 0x10000 4 .fetch with
            | .ok (p :: _) => (s'.cachedBlock 0 (p.addr / 32 * 32)).isNone
            | _ => false)
      | _ => false) = true) ∧
    (match (State.reset.withFetchWord 64 3).fetchBlock 1 0 0x10000 with
      | .ok d _ => blockFrom d 0 % 2 ^ 32 == 3
      | _ => false) = true ∧ isaInstr .powerGood = false := by decide +kernel

/-- R367: of two ready waves of a quadrant the older is taken first. -/
theorem test_witness_StepRunsDecoded_arbitration :
    (let s := State.reset.withFetchWord 64 0x0006_00C0_1800_3800
     let v : Wave := { wid := 4, uid := 2, lanes := [], quadrant := 0, age := 9 }
     let s' := ({ s with waves := s.waves ++ [v], agenda := [], freeCtr := 1 } : State).pass []
     (s'.wave? 4 = some v ∧ v.waiting = false ∧ ∃ w ∈ s'.waves, s'.ready w = true ∧ w.quadrant = v.quadrant ∧ s'.coreOf w = s'.coreOf v ∧
       s'.atTrapPriority w = s'.atTrapPriority v ∧ w.age < v.age)) := by decide +kernel

theorem test_witness_DeviceStateKept :
    changesDevice (.nop {}) = false ∧ (after (exec (.nop {}) two)).isSome = true ∧ changesDevice (.fillComplete 0) = false := by
  decide +kernel

theorem test_witness_IntegerArithmetic : ∀ p ∈ ops 0x20 11 fi, Meets two p.1 p.2 yes := all_meet (by decide +kernel)

theorem test_witness_MovesAndLogic : ∀ p ∈ ops 0x2B 1 fi ++ ops 0x2D 1 fb ++ ops 0x2E 8 fb ++ ops 0x3D 3 fb
    ++ ops 0x2F 1 { fb with mods := { ty := .b32 } }, Meets two p.1 p.2 yes := all_meet (by decide +kernel)

theorem test_witness_Shifts : ∀ p ∈ ops 0x36 5 fb, Meets two p.1 p.2 yes := all_meet (by decide +kernel)

theorem test_witness_BitFields : ∀ p ∈ ops 0x3B 1 fi ++ ops 0x3C 1 fb, Meets two p.1 p.2 yes := all_meet (by decide +kernel)

theorem test_witness_PredicateOperations :
    ∀ p ∈ ops 0x2C 1 { fi with d := .lit 1, fn := 5 } ++ ops 0x40 1 { d := .lit 1, a := .lit 0, b := .lit 6, fn := 3 }
      ++ ops 0x41 1 { d := .lit 1, a := .v 2 }, Meets two p.1 p.2 yes := all_meet (by decide +kernel)

theorem test_witness_IntegerConversion :
    ∀ p ∈ ops 0x42 1 { d := .v 2, a := .v 4, mods := { ty := .i64, src := .i8 } } ++ ops 0x43 1 fi ++ ops 0x44 1 fi,
      Meets two p.1 p.2 yes := all_meet (by decide +kernel)

theorem test_witness_CrossLane :
    ∀ p ∈ ops 0x48 1 { fb with fn := 3 } ++ ops 0x49 1 { d := .lit 1, a := .lit 6, fn := 2 } ++ ops 0x4A 1 { d := .v 1, a := .lit 6 }
      ++ ops 0x4B 2 { fb with fn := 5 } ++ ops 0x4D 1 fb ++ ops 0x4E 1 { d := .lit 1 }, Meets two p.1 p.2 yes :=
  all_meet (by decide +kernel)

theorem test_witness_FloatArithmetic : ∀ p ∈ ops 0x60 6 ff ++ ops 0x68 2 ff, Meets two p.1 p.2 yes := all_meet (by decide +kernel)

theorem test_witness_FloatCompareClassifySign :
    ∀ p ∈ ops 0x66 1 { ff with d := .lit 1, fn := 7 } ++ ops 0x67 1 ff ++ ops 0x6A 1 { ff with fn := 3 }, Meets two p.1 p.2 yes :=
  all_meet (by decide +kernel)

theorem test_witness_PackedAndDot : ∀ p ∈ ops 0x6B 5 { ff with mods := { ty := .f16 } }, Meets two p.1 p.2 yes :=
  all_meet (by decide +kernel)

theorem test_witness_SpecialFunctions :
    (∀ p ∈ ops 0x70 10 ff, Meets two p.1 p.2 yes) ∧ (FVal.decode .f32 0x7FC00000).isNan = true ∧
    (sfuExact 0x72 (.fin false 3 0)).isNone = true :=
  ⟨all_meet (by decide +kernel), by decide +kernel, by decide +kernel⟩

/-- R193's exact results: EX2 of -149 and of 127, LG2 of 2^-149, SQRT of 9, SINP of 1/2 and 3/2, COSP of 1/2, TANH of 9 and -9. -/
theorem test_sfu_exact :
    ([(0x75, 0xC3150000), (0x75, 0x42FE0000), (0x76, 1), (0x74, 0x41100000), (0x77, 0x3F000000), (0x77, 0x3FC00000), (0x78, 0x3F000000),
      (0x79, 0x41100000), (0x79, 0xC1100000)].map fun p => sfuResult p.1 .f32 .rn false p.2)
      = [1, 0x7F000000, 0xC3150000, 0x40400000, 0x3F800000, 0xBF800000, 0, 0x3F800000, 0xBF800000] := by decide +kernel

/-- R184, at the bounds: half a step beyond the largest FP32 value, and just short of it; half the smallest subnormal. R189: -2.5, 128.5
and 1.5 as I8. -/
theorem test_round_bounds :
    ([Rnd.rn, .rz, .ru, .rd].map fun r => ((FVal.fin false (2 ^ 25 - 1) 103).round .f32 r false, (FVal.fin true (2 ^ 25 - 1) 103).round .f32 r false,
      (FVal.fin false (2 ^ 26 - 3) 102).round .f32 r false, (FVal.fin false 1 (-150)).round .f32 r false))
      = [(0x7F800000, 0xFF800000, 0x7F7FFFFF, 0), (0x7F7FFFFF, 0xFF7FFFFF, 0x7F7FFFFF, 0), (0x7F800000, 0xFF7FFFFF, 0x7F800000, 1),
        (0x7F7FFFFF, 0xFF800000, 0x7F7FFFFF, 0)] ∧
    ([Rnd.rn, .rz, .ru, .rd].map fun r => [FVal.fin true 5 (-1), .fin false 257 (-1), .fin false 3 (-1)].map fun v => v.toIntTy .i8 r)
      = [[-2, 127, 2], [-2, 127, 1], [-2, 127, 2], [-3, 127, 1]] := by decide +kernel

theorem test_witness_Conversions :
    ∀ p ∈ ops 0x7A 1 ff ++ ops 0x7B 1 { ff with mods := { ty := .n64, src := .f32 } } ++ ops 0x7C 1 ff
      ++ ([Ty.f16, .e4m3, .e2m1].flatMap fun ty => ops 0x7D 1 { ff with mods := { ty } })
      ++ ([Ty.bf16, .ps8, .e2m1].flatMap fun src => ops 0x7E 1 { ff with mods := { src } }) ++ ops 0x7F 1 ff,
      Meets two p.1 p.2 yes := all_meet (by decide +kernel)

/-- The least subnormal and the greatest finite value. -/
theorem test_witness_ExactValuesKeepTheirCode :
    (∃ n m e, FVal.decode .f32 1 = .fin n m e) ∧ (∃ n m e, FVal.decode .e4m3 0xFE = .fin n m e) := by
  exact ⟨⟨_, _, _, rfl⟩, ⟨_, _, _, rfl⟩⟩

theorem test_witness_ResultsReachRegisters : fixedLatency 0x20 = true ∧ Meets two 0x20 fi fun x => decide (1 < x.team.vregs) :=
  ⟨by decide, meets (by decide +kernel)⟩

theorem test_witness_ComputingTouchesOnlyRegisters :
    (Instr.cvttd ff).opFields = some (0x7F, ff) ∧ Meets two 0x7F ff yes ∧
    (Instr.iadd { fi with c := .unused }).wf = true ∧ Meets two 0x20 { fi with c := .unused } yes :=
  ⟨rfl, meets (by decide +kernel), by decide +kernel, meets (by decide +kernel)⟩

theorem test_witness_WaveGoesOn : Meets two 0x00 {} yes ∧ Meets two 0x09 {} yes := ⟨meets (by decide +kernel), meets (by decide +kernel)⟩

/-- A result that is bound, and one that is not. -/
def waiting (parts : Nat) : State := base [{ thread 0 with pend := [{ id := 1, writes := [⟨.v 1, 5⟩], parts }] }, thread 1]

theorem test_witness_OutstandingResults :
    fixedLatency 0x4A = false ∧ Meets two 0x4A { d := .v 1, a := .lit 0 } yes ∧
    ((waiting 0).thread? uid 0).map (fun th => (th.pend.map (·.parts), th.pend.map (·.writes))) = some ([0], [[⟨.v 1, 5⟩]]) ∧
    (Meets (waiting 0) 0x00 { marker := true } fun x => x.team.unbound x.wave.tids == []) ∧
    Meets (waiting 1) 0x00 { marker := true } fun x => x.team.unbound x.wave.tids != [] && x.wave.park.isNone :=
  ⟨by decide, meets (by decide +kernel), by decide +kernel, meets (by decide +kernel), meets (by decide +kernel)⟩

/-- A release has taken effect for every participant: what `Issue.released` says. -/
def rel (sc : Scope) (x : Issue) : Bool :=
  x.parts.all fun lt => lt.2.released || x.s.relOk .normal sc x.team lt.2 x.s.seq

/-- Threads whose return stacks hold one address, and 23. -/
def stacked : State := base [{ thread 0 with stack := [0x10200] }, { thread 1 with stack := List.replicate 23 0x10200 }]

theorem test_witness_Branches :
    (∀ p ∈ ops 1 5 { a := .v 2, x21 := 9 }, Meets stacked p.1 p.2 yes) ∧
    (Meets stacked 5 {} fun x => x.parts.all fun lt => lt.2.stack.length < 24 && lt.2.stack != []) ∧
    (∀ op ∈ [3, 4], Meets (base [{ thread 0 with stack := List.replicate 24 0x10200 }]) op { a := .v 2, x21 := 9 } fun x =>
      x.parts.any fun lt => 24 ≤ lt.2.stack.length) := by
  refine ⟨all_meet (by decide +kernel), meets (by decide +kernel), ?_⟩
  intro op h
  simp only [List.mem_cons, List.not_mem_nil, or_false] at h
  rcases h with rfl | rfl <;> exact meets (by decide +kernel)

def paused (m : Option (List Nat)) : State :=
  { base [{ thread 0 with blocked := some { wait := .pause 9, len := 8, since := 5, cycle := 0, marker := m } }] with
    cycles := [9, 0, 0, 0], meres := [⟨0, uid, 0x10000, false, [(1, 0)]⟩] }

/-- Zero and more cycles; a wait that is just over; a mere due at 64 cycles and not at 63. -/
theorem test_witness_LeavingToWait :
    Meets two 8 {} yes ∧ (Meets two 13 { a := .lit 4 } fun x => (x.last? fun l => l.2.tid == 1 && x.a l 32 != 0).isSome) ∧
    (Meets two 13 { a := .lit 0 } fun x => x.parts.all fun lt => x.a lt 32 == 0) ∧ Meets two 7 {} yes ∧
    (Meets two 7 { marker := true } fun x => x.team.unbound x.wave.tids == []) ∧
    (let s := paused none
     ((s.thread? uid 0).bind (·.wait?)) = some (.pause 9) ∧ 9 ≤ s.now 0 ∧ { s with cycles := [8, 0, 0, 0] }.now 0 < 9 ∧
       (s.team? uid).any (fun t => t.status == .resident) = true) ∧
    ([64, 63].map fun c => let s := { paused none with cycles := [c, 0, 0, 0] }; s.meres.map s.mereDue) = [[true], [false]] :=
  ⟨meets (by decide +kernel), meets (by decide +kernel), meets (by decide +kernel), meets (by decide +kernel),
    meets (by decide +kernel), by decide +kernel, by decide +kernel⟩

theorem test_witness_Exit :
    Meets two 6 {} (rel .pk) ∧ Meets two 5 {} fun x => rel .pk x && x.parts.all fun lt => lt.2.stack == [] :=
  ⟨meets (by decide +kernel), meets (by decide +kernel)⟩

theorem test_witness_IssueChecksTrap :
    (two.issue? 0x0E { d := .v 2, a := .lit 0 }).isSome = true ∧
    ((two.issue? 0x0E {}).any fun x => (State.issueErr x.team x.wave 0x0E {}).isSome) = true ∧
    ((two.team? uid).map fun t => [fi, { fi with d := .v 8 }, { fi with a := .v 8 }, { fi with b := .v 8 }].map
      (regRangeErr { t with vregs := 8 } 0x20)) = some [none, some 8, some (1024 + 8), some (2048 + 8)] ∧
    ((two.team? uid).map fun t => [7, 8].map fun k => regRangeErr { t with vregs := 8 } 0x23 { fi with c := .v k })
      = some [none, some (3072 + 8)] ∧
    ((two.team? uid).map fun t => [7, 8].map fun k => regRangeErr { t with vregs := 8 } 0xD9
      { d := .v 0, a := .v 1, b := .v 2, c := .v 4, x21 := BitVec.ofNat 21 k }) = some [none, some (4096 + 8)] ∧
    ((two.team? uid).map fun t => [2, 3].map fun k => regRangeErr { t with guards := t.guards.take 3 } 0xA9
      { a := .v 0, b := .v 2, c := .v 4, x21 := BitVec.ofNat 21 (2 ^ 20 + k * 2 ^ 16) }) = some [none, some (2 ^ 62 + 3)] ∧
    (form 0x20).isSome = true := by decide +kernel

theorem test_witness_TakingATrap :
    ((two.wave? 3).any fun w => (two.team? w.uid).any fun tm => (two.ctx? (two.ctxOf tm)).any fun c =>
      decide (tm.unbound w.tids = []) && decide (c.trapEntry ≠ 0) && !c.dying && tm.threads.all fun th => !th.handler) = true ∧
    ((base [{ thread 0 with handler := true }]).team? uid).any (fun tm => tm.threads.any (·.handler)) = true := by decide +kernel

theorem test_witness_ProgramTraps :
    (Meets two 0x0A { a := .lit 1 } fun x => x.parts != []) ∧
    (Meets two 0x0A { a := .lit 1, guard := .pred 0 false } fun x => x.parts == []) ∧
    (Meets two 0x0C { a := .lit 1 } fun x => x.parts.all fun lt => x.a lt 32 != 0) ∧
    (Meets two 0x0C { a := .lit 0 } fun x => x.parts.any (fun lt => x.a lt 32 == 0) && x.ctx.status != .stopped) ∧
    (Meets { two with contexts := two.contexts.map fun c => { c with status := .stopped } } 0x0C { a := .lit 0 } fun x =>
      x.parts.any (fun lt => x.a lt 32 == 0) && x.ctx.status == .stopped) :=
  ⟨meets (by decide +kernel), meets (by decide +kernel), meets (by decide +kernel), meets (by decide +kernel), meets (by decide +kernel)⟩

def handling (cause : Nat) : State := base [{ thread 0 with handler := true, trapCause := BitVec.ofNat 32 (256 + cause) }]

theorem test_witness_TrapReturn :
    (∀ c ∈ [0x09, 0x10, 0x13, 0x20, 0x05], Meets (handling c) 0x0B {} fun x => x.parts.all fun lt =>
      lt.2.handler && !lt.2.trapCause.getLsbD 9 && decide (x.parts = [lt]) && decide (lt.2.trapCause.toNat % 256 = c)) ∧
    (Meets (base [thread 0]) 0x0B {} fun x => x.parts.all fun lt => decide (x.parts = [lt]) && !lt.2.handler) ∧
    Meets { handling 0x210 with contexts := two.contexts.map fun c => { c with handling := some ⟨0x10, 0, 0, .join 7⟩ } } 0x0B {} fun x =>
      x.ctx.handlingJoin && x.parts.all fun lt => decide (x.parts = [lt]) && lt.2.handler && lt.2.trapCause.getLsbD 9 := by
  refine ⟨?_, ?_, meets (by decide +kernel)⟩
  · intro c hc
    simp only [List.mem_cons, List.not_mem_nil, or_false] at hc
    rcases hc with rfl | rfl | rfl | rfl | rfl <;> exact meets (by decide +kernel)
  · exact meets (by decide +kernel)

theorem test_witness_HandlerRegisters :
    Meets (handling 9) 0x0E { d := .v 2, a := .lit 2 } yes ∧ Meets (handling 9) 0x0F { a := .lit 0, b := .v 2 } yes ∧
    ((encode (.swreg { a := .lit 0, b := .v 2 })).bind fun w => (decodeAt 0 w.1).toOption).isSome = true :=
  ⟨meets (by decide +kernel), meets (by decide +kernel), by decide +kernel⟩

/-! ### Memory -/

/-- V4 holds a mapped address. -/
def mapped (tid : Nat) : Thread := { thread tid with v := [(4, 0x10000)] }
def mem2 : State := base [mapped 0, mapped 1]

def clear (x : Issue) : Bool := x.memChecks.all (fun c => x.parts.all fun lt => (c.2 lt).isNone) && !x.mustWait x.s

def noNack (x : Issue) : Bool := x.parts.all fun lt => (x.s.nackOf x.team.uid lt.2.tid).isNone

def fg : Fields := { mods := { ty := .n32 }, d := .v 8, a := .v 4, b := .v 2, c := .v 3 }
def fl : Fields := { fg with fn := 1, a := .v 6 }

/-- The first check fails on a misaligned atomic, the last on no state this small: the causes are those of R274. -/
theorem test_witness_MemoryChecksTrap :
    (Meets (base [{ thread 0 with v := [(4, 0x10002)] }]) 0x84 fg fun x => x.parts.any (fun lt => (misalignedErr x lt).isSome)
      && noNack x && x.space == .g) ∧
    (Meets (base [{ thread 0 with v := [(4, 0x90000)] }]) 0x80 fg fun x =>
      (x.memChecks.take 4).all (fun c => x.parts.all fun lt => (c.2 lt).isNone) && x.parts.any fun lt => (xlateErr x lt).isSome) ∧
    (Meets mem2 0x84 fg fun x => x.parts.all fun lt => x.ea lt % 2 ^ 52 % x.size == 0) :=
  ⟨meets (by decide +kernel), meets (by decide +kernel), meets (by decide +kernel)⟩

theorem test_witness_LocalLoads :
    (Meets mem2 0x80 fl fun x => clear x && x.space == .l) ∧ (Meets mem2 0x82 fl fun x => clear x && x.space == .l) ∧
    Meets mem2 0x80 { fl with fn := 2 } fun x => clear x && x.space == .k :=
  ⟨meets (by decide +kernel), meets (by decide +kernel), meets (by decide +kernel)⟩

theorem test_witness_LocalStores :
    (Meets mem2 0x81 fl fun x => clear x && x.space == .l) ∧
    Meets mem2 0x83 fl fun x => clear x && x.space == .l && noNack x && x.releasesNow x.s :=
  ⟨meets (by decide +kernel), meets (by decide +kernel)⟩

theorem test_witness_GlobalLoads :
    (Meets mem2 0x80 fg fun x => clear x && x.space == .g && x.parts.all fun lt => !x.hits lt) ∧
    (Meets mem2 0x82 fg fun x => clear x && x.space == .g) ∧
    (let s := base [mapped 0, { mapped 1 with v := [(4, 0x10080)] }]
     Meets { s with l1 := [⟨0, 0x800, 0, 0, 0xF, false⟩] } 0x80 fg fun x => clear x && x.space == .g &&
      decide (x.parts.map (fun lt => (lt.2.tid, x.hits lt)) = [(0, true), (1, false)]) &&
      x.parts.all fun lt => (x.parts' lt).all fun p => !p.leaf.pk) :=
  ⟨meets (by decide +kernel), meets (by decide +kernel), meets (by decide +kernel)⟩

/-- A store of thread 0 on its way holds a release at .PK back. -/
def storing : State :=
  { mem2 with msgs := [{ id := 1, cluster := 0, line := 4096, uid, tid := 0, op := 1, ctx := 1, size := 4, what := .write [] true }] }

theorem test_witness_GlobalStores :
    (Meets mem2 0x81 fg fun x => clear x && x.space == .g && x.parts.all fun lt => x.storeCells lt != []) ∧
    (Meets mem2 0x83 fg fun x => clear x && noNack x && x.releasesNow x.s) ∧
    (Meets storing 0x83 { fg with mods := { ty := .n32, sc := .pk } } fun x =>
      clear x && x.space == .g && noNack x && !x.releasesNow x.s) :=
  ⟨meets (by decide +kernel), meets (by decide +kernel), meets (by decide +kernel)⟩

theorem test_witness_Atomics :
    (∀ op ∈ [0x84, 0x85, 0x86, 0x87], (Meets mem2 op fg fun x => clear x && noNack x && !x.releases && x.space == .g &&
        x.parts.all fun lt => x.parts' lt != []) ∧
      Meets (base [mapped 0]) op fl fun x => clear x && noNack x && !x.releases && x.space == .l && x.parts.length == 1) := by
  intro op h
  simp only [List.mem_cons, List.not_mem_nil, or_false] at h
  rcases h with rfl | rfl | rfl | rfl <;> exact ⟨meets (by decide +kernel), meets (by decide +kernel)⟩

/-- A range fence over the page that the accesses touch. -/
def rangeFenced : State := base [{ mapped 0 with fences := [⟨5, 0x10000, 0x10100, .pk, true, true⟩] }]

theorem test_witness_FencesAndPrefetch :
    (Meets two 0x88 { mods := { ord := .acq, sc := .pk } } fun x => x.parts != [] &&
      x.parts.all fun lt => x.s.fenceOk .normal .pk false true x.team lt.2 (x.wave.since.getD x.s.seq)) ∧
    (Meets two 0x88 { mods := { ord := .rel, sc := .sy } } fun x => noNack x &&
      x.parts.all fun lt => x.s.fenceOk .all .sy true false x.team lt.2 (x.wave.since.getD x.s.seq)) ∧
    Meets mem2 0x89 { mods := { ord := .ar, sc := .pk }, a := .v 4, b := .lit 4 } (fun x => x.parts != []) ∧
    ([storing, mem2].map fun s => (s.team? uid).any fun t => (t.thread? 0).any fun th =>
      s.fenceOk (.range 0 (2 ^ 52)) .pk true false t th 9) = [false, true] ∧
    (∀ op ∈ [0x80, 0x81], Meets rangeFenced op fg fun x => x.space == .g && x.memChecks.all (fun c => x.parts.all fun lt => (c.2 lt).isNone) &&
      x.parts.any fun lt => lt.2.fenced (x.ea lt) x.size (x.access != .read)) ∧
    Meets mem2 0x8A { a := .v 4 } yes := by
  refine ⟨meets (by decide +kernel), meets (by decide +kernel), meets (by decide +kernel), by decide +kernel, ?_, meets (by decide +kernel)⟩
  intro op h
  simp only [List.mem_cons, List.not_mem_nil, or_false] at h
  rcases h with rfl | rfl <;> exact meets (by decide +kernel)

/-! ### Parcels, engines, slots -/

/-- V0 to V3 and V6 are zero, V4 the mapped address. -/
def parcel (st : ParcelState) (entered : Nat) : Parcel :=
  { id := 0, ctx := 1, extents := [(0x200, 4)], ro := false, state := st, entered }

def withParcel (st : ParcelState) (entered : Nat) : State := { mem2 with parcels := [parcel st entered], contexts := mem2.contexts.map fun c => { c with pquota := 1024 } }

def withTeam (s : State) (g : Team → Team) : State := { s with teams := s.teams.map g }

/-- A descriptor of one extent of four lines stands at the mapped address. -/
def declaring : State :=
  let s := withParcel .resident 1
  { s with mem := Memory.write s.mem (cellsAt 0x40000 (toBytes 8 1 ++ toBytes 8 0 ++ toBytes 8 0x10000 ++ toBytes 8 4)) }

/-- The parcel is resident, and another team's request heads the queue. -/
def queueing (entered : Nat) : State := { withParcel .resident entered with admission := [⟨9, true, 1, [], 1, 0, [5]⟩] }

def penter0 : Fields := { d := .v 8, a := .v 0, b := .lit (-1), c := .lit (-1), x21 := 0x7FF }

/-- A descriptor that is accepted; a request that is admitted at once, as its parcel is entered, and one that is not; PLEAVE by the
last thread that is in, and by another. -/
theorem test_witness_ParcelInstructions_accepted :
    (Meets declaring 0xA0 { d := .v 8, a := .v 4 } fun x => x.parts.all fun lt => pdeclReady x x.s lt
      && [0x10, 0x11, 0x12].all (fun c => (pdeclTrap c x lt).isNone) && match x.s.descRead x.team.tlb 1 (x.a lt 64) with
        | .ok d => (x.s.declErr x.ctx d).isNone && !x.s.poisonedVa x.team.tlb 1 (x.a lt 64) d.length
        | .error _ => false) ∧
    ([1, 0].map fun n => (queueing n).queue.map fun r => (queueing n).backfills r ⟨uid, true, 2, [], 1, 0, [0]⟩) = [[true], [false]] ∧
    ((queueing 1).queueLength < 16384 ∧ (queueing 1).admission.all (·.queued) = true) ∧
    (∀ n ∈ [1, 0], Meets (queueing n) 0xA1 penter0 fun x => x.parts.all fun lt => !lt.2.joined && x.team.rel == .out &&
      (x.s.request x.ctx x.team.uid (penterOperands [x.a lt 32, x.b lt 32, x.c lt 32, x.e lt 32])).toOption.isSome) ∧
    (Meets (withTeam mem2 fun t => { t with rel := .inside [0], threads := [{ mapped 0 with joined := true }, { mapped 1 with joined := true }] })
      0xA2 { d := .v 8 } fun x => x.parts.all (·.2.joined)) ∧
    (Meets (withTeam mem2 fun t => { t with rel := .asking [0] }) 0xA1 penter0 fun x => x.team.rel == .asking [0]) := by
  refine ⟨meets (by decide +kernel), by decide +kernel, by decide +kernel, ?_, meets (by decide +kernel), meets (by decide +kernel)⟩
  intro n h
  simp only [List.mem_cons, List.not_mem_nil, or_false] at h
  rcases h with rfl | rfl <;> exact meets (by decide +kernel)

/-- A descriptor that names no extents is refused, and PENTER of no parcel at all; a team inside, its last thread and not. -/
theorem test_witness_ParcelInstructions :
    (Meets mem2 0xA0 { d := .v 8, a := .v 4 } fun x => x.parts.all fun lt => pdeclReady x x.s lt
      && [0x10, 0x11, 0x12].all (fun c => (pdeclTrap c x lt).isNone) && x.a lt 64 % 16 == 0
      && (match x.s.descRead (.core 0) 1 (x.a lt 64) with
        | .ok d => (x.s.declErr x.ctx d).isSome && !x.s.poisonedVa (.die 0) 1 (x.a lt 64) d.length
        | .error _ => false)) ∧
    (Meets (withParcel .absent 0) 0xA1 { d := .v 8, a := .v 0, b := .lit (-1), c := .lit (-1), x21 := 0x7FF } fun x =>
      x.parts.all fun lt => !lt.2.joined && x.team.rel == .out &&
        (x.s.request x.ctx x.team.uid (penterOperands [x.a lt 32, x.b lt 32, x.c lt 32, x.e lt 32])).toOption.isSome) ∧
    ((withParcel .absent 0).ctx? 1).any (fun c => ((withParcel .absent 0).request c uid [(0, 7)]).toOption.isNone) = true ∧
    (Meets (withTeam mem2 fun t => { t with rel := .inside [0], threads := [{ mapped 0 with joined := true }, mapped 1] }) 0xA2
      { guard := .pred 0 true, d := .v 8 } fun x => x.parts.any (·.2.joined) && x.parts.any fun lt => !lt.2.joined) ∧
    (∀ p ∈ [(ParcelState.absent, 0), (.filling, 0), (.resident, 0), (.resident, 1), (.evicting, 0)],
      Meets (withParcel p.1 p.2) 0xA3 { d := .v 8, a := .v 0 } fun x => x.parts.all fun lt =>
        (x.s.parcel? 1 (x.a lt 32)).isSome && !x.s.requested 0) ∧
    Meets (withParcel .resident 1) 0xA4 { d := .v 8, a := .v 0 } yes := by
  refine ⟨meets (by decide +kernel), meets (by decide +kernel), by decide +kernel, meets (by decide +kernel), ?_, meets (by decide +kernel)⟩
  intro p hp
  simp only [List.mem_cons, List.not_mem_nil, or_false] at hp
  rcases hp with rfl | rfl | rfl | rfl | rfl <;> exact meets (by decide +kernel)

def lent : State := { mem2 with
  polders := [⟨0, 1, 1, 0, 0, 10, 0⟩], contexts := mem2.contexts.map fun c => { c with pwLen := 8, lquota := 64 } }

/-- A lease of 10 cycles and lines 1, and one of zero lines; identifier 0 is a polder, identifier 8 none. -/
theorem test_witness_PolderInstructions :
    (Meets lent 0xA6 { d := .v 8, a := .lit 1, b := .lit 10 } fun x => x.parts.all fun lt =>
      (x.s.leaseCheck x.ctx (x.a lt 32) (x.b lt 64)).toOption.isSome) ∧
    (Meets lent 0xA6 { d := .v 8, a := .lit 0, b := .lit 10 } fun x => x.parts.all fun lt =>
      !(x.s.leaseCheck x.ctx (x.a lt 32) (x.b lt 64)).toOption.isSome) ∧
    (Meets lent 0xA7 { d := .v 8, a := .lit 0 } fun x => x.parts.all fun lt => (x.s.polder? 1 (x.a lt 32)).isSome) ∧
    (Meets lent 0xA7 { d := .v 8, a := .lit 8 } fun x => x.parts.all fun lt => (x.s.polder? 1 (x.a lt 32)).isNone) ∧
    Meets lent 0xA8 { d := .v 8, a := .lit 0 } yes ∧
    ([9, 10].map fun c => let s : State := { lent with cycles := [c, 0, 0, 0] }; s.polders.map s.leaseDue) = [[false], [true]] :=
  ⟨meets (by decide +kernel), meets (by decide +kernel), meets (by decide +kernel), meets (by decide +kernel), meets (by decide +kernel),
    by decide +kernel⟩

/-- A ring of two slots of 16 bytes at 0x80, its tags at 0x40, the first tag given. -/
def ringed (tag : Nat) : State := withTeam mem2 fun t => { t with
  loc := cellsAt 0 ((iota 0 8).flatMap fun k => toBytes 4 ([0x80, 16, 2, 0x40].getD k 0)) ++ cellsAt 0x40 (toBytes 4 tag ++ toBytes 4 0) }

theorem test_witness_SlotInstructions :
    ((ringed 0).team? uid).any (fun t => (t.ring? 0).isSome && (t.ring? 16).isNone) = true ∧
    ([0, 2, 3, 1].map fun tag => ((ringed tag).team? uid).map fun t =>
      ((t.slotOp 0 (.res 16)).map (·.2), (t.slotOp 0 .take).map (·.2), (t.slotOp 0 .done).map (·.2), (t.slotOp 0 .fill).map (·.2)))
      = [some (some 0x1001, none, some 0x80000011, some 0x80000011), some (none, some 3, some 0x80000011, some 0x80000011),
        some (none, none, some 4, some 0x80000011), some (none, none, some 0x80000011, some 2)] ∧
    (∀ p ∈ [(0xB0, { d := .v 8, a := .lit 0 }), (0xB1, { d := .v 8, a := .lit 0, b := .lit 16 }), (0xB2, { d := .v 8, a := .lit 0 }),
      (0xB3, { d := .v 8, a := .lit 0 }), (0xB4, { d := .v 8, a := .lit 0 }), (0xB5, { d := .v 8, a := .lit 0 })],
      Meets (ringed 0) p.1 p.2 yes) ∧ Meets (ringed 3) 0xB3 { d := .v 8, a := .lit 0 } (rel .tm) :=
  ⟨by decide +kernel, by decide +kernel, all_meet (by decide +kernel), meets (by decide +kernel)⟩

theorem test_witness_GuardsAndEmbargoQuery :
    (Meets two 0xB8 { a := .lit 15, b := .v 2 } fun x => x.parts.all fun lt => decide (x.a lt 32 < x.team.guards.length)) ∧
    (Meets two 0xB8 { a := .lit 16, b := .v 2 } fun x => x.parts.any fun lt => decide (x.team.guards.length ≤ x.a lt 32)) ∧
    (∀ p ∈ [(0xB9, { a := .lit 16 }), (0xB9, { a := .lit 0 }), (0xBA, { d := .v 8, a := .lit 64 })], Meets two p.1 p.2 yes) :=
  ⟨meets (by decide +kernel), meets (by decide +kernel), all_meet (by decide +kernel)⟩

def local2 : Fields := { mods := { dsp := .l, ssp := .l }, a := .lit 64, b := .lit 0, c := .lit 16 }

/-- As many sealed, unfinished batches as hold a SEAL back. -/
def manySeals : State :=
  { base [{ mapped 0 with sealed := iota 1 255 }] with couriers := (iota 1 255).map fun n =>
      { id := n, core := 0, uid, tid := 0, ctx := 1, gid := 1, pc := 0, what := .cpy true true 0 0 1, guardSlot := none,
        batch := n, number := n, state := .queued } }

/-- A descriptor of one F32 element at local offset 0, and a parent byte of -1 there. -/
def described : State := withTeam { mem2 with grids := mem2.grids.map fun g => { g with lrec := { g.lrec with tdcount := 1 } } } fun t =>
  { t with tds := [some (BitVec.ofNat 64 (2 ^ 58 + 11 * 2 ^ 53), BitVec.ofNat 64 (2 ^ 48 + 2 ^ 32 + 16), 0, 0)], loc := [(0, 0xFF)] }

theorem test_witness_CourierInstructions :
    (Meets mem2 0xA9 local2 fun x => !x.f.mods.bit && x.parts.all fun lt => (copyLocalErr x lt).isNone && (x.copyOp lt).isSome) ∧
    (Meets mem2 0xAA { local2 with c := .lit 0, x21 := 2, l32 := 8 } fun x => x.parts.all fun lt => (copyLocalErr x lt).isNone) ∧
    (Meets mem2 0xAD { d := .v 8, a := .lit 0 } fun x => x.parts.all fun lt => (waitbErr x lt).isNone) ∧
    Meets mem2 0xAC { d := .v 8 } (fun x => x.parts.all fun lt => decide ((x.s.openSeals uid lt.2).length < 255)) ∧
    (Meets manySeals 0xAC { d := .v 8 } fun x => x.parts.all fun lt => decide (255 ≤ (x.s.openSeals uid lt.2).length)) ∧
    ([254, 255].map fun n => (manySeals.issue? 0xAD { d := .v 8, a := .lit n }).map fun x => x.parts.map fun lt =>
      decide ((x.s.openSeals uid lt.2).length ≤ x.a lt 32 ∨ 255 ≤ x.a lt 32)) = [some [false], some [true]] ∧
    (Meets mem2 0xAE { d := .v 8, a := .v 4, b := .lit 0, c := .lit 0 } fun x => x.parts.all fun lt =>
      decide ((x.s.openSeals uid lt.2).length < 255) && kvReady x x.s lt && (x.kvPoison x.s lt).isNone &&
        [0x10, 0x11, 0x12].all (fun c => (kvTrap c x lt).isNone) && (kvLocalErr x lt).isNone) ∧
    Meets described 0xAB { a := .lit 0, b := .lit 0, c := .lit 1 } fun x => x.parts.all fun lt => (cpytdErr x lt).isNone && (cpytdLocalErr x lt).isNone :=
  ⟨meets (by decide +kernel), meets (by decide +kernel), meets (by decide +kernel), meets (by decide +kernel),
    meets (by decide +kernel), by decide +kernel, meets (by decide +kernel), meets (by decide +kernel)⟩

theorem test_witness_MatrixInstructions :
    (Meets mem2 0xC0 { d := .v 8, a := .lit 0, b := .v 4 } fun x => x.parts.all fun lt =>
      (x.s.readVa (.die 0) 1 (x.b lt 64) 32).toOption.isSome && !x.s.poisonedVa (.die 0) 1 (x.b lt 64) 32 && x.ownDone x.s lt (x.b lt 64) 32) ∧
    (∀ p ∈ [(0xC1, { d := .v 8, a := .lit 0, b := .lit 3 }), (0xC3, {}), (0xC9, { d := .v 8, a := .lit 2 })], Meets mem2 p.1 p.2 yes) ∧
    (Meets mem2 0xC3 {} fun x => x.parts.all fun lt => (mxCheck x.team x.grid.lrec (x.mxWord lt)).toOption.isSome) ∧
    (Meets mem2 0xC5 { a := .lit 0, b := .lit 1 } fun x => x.parts.all fun lt =>
      (mxCheck x.team x.grid.lrec (x.mxWord lt)).toOption.isSome) ∧
    (Meets described 0xC8 { a := .lit 0, b := .lit 1 } fun x => !x.maskWaits x.s && x.parts.all fun lt =>
      (mxCheck x.team x.grid.lrec (x.mxWord lt)).toOption.isSome) ∧
    (Meets mem2 0xCA { d := .v 8, a := .v 4, b := .lit 1 } fun x => x.grid.lrec.matrix && x.parts.all fun lt => blockReady x x.s lt &&
      !x.s.poisonedVa x.team.tlb 1 (x.a lt 64) (x.blockLen lt) && (x.s.readVa x.team.tlb 1 (x.a lt 64) (x.blockLen lt)).toOption.isSome) ∧
    (Meets mem2 0xCB {} fun x => x.grid.lrec.matrix && x.parts != []) ∧
    (Meets mem2 0xC7 { d := .v 8, a := .lit 0 } fun x => x.parts.all fun lt => (x.s.mwaitFault uid lt.2.tid).isNone) ∧
    ((let s := { mem2 with matrix := [⟨61, 0, 0, uid, 0, 1, 1, 0, 0xC3, 0, .swap, none, .queued, 0, false, none⟩] }
     [0, 1, 31, 32].map fun n => decide (s.mxUnfinished uid 0 ≤ n ∨ 32 ≤ n)) = [false, true, true, true]) ∧
    ({ mem2 with engines := [{ uid, stopped := true }] }.engine uid).stopped = true ∧
    (tdOf (List.replicate 32 0)).2.1 = 0 :=
  ⟨meets (by decide +kernel), all_meet (by decide +kernel), meets (by decide +kernel), meets (by decide +kernel),
    meets (by decide +kernel), meets (by decide +kernel), meets (by decide +kernel), meets (by decide +kernel), by decide +kernel,
    by decide +kernel, by decide +kernel⟩

/-! ### Synchronisation, tasks, stages, launches, the fabric -/

def hosts (ths : List Thread) : State :=
  let s := base ths
  { s with grids := s.grids.map fun g => { g with lrec := { g.lrec with taskHost := true } } }

def blockedIn (w : Wait) (pc : DWord := 0x10000) : Thread :=
  { thread 0 with pc := pc, blocked := some { wait := w, len := 8, since := 1, cycle := 0 } }

theorem test_witness_BarriersAndEvents :
    Meets two 0xD0 { a := .lit 15 } (rel .tm) ∧
    (Meets two 0xD1 { a := .lit 0 } fun x => rel .tm x && x.parts.all fun lt => lt.2.arrival 0 != some (x.team.barrier 0).phase) ∧
    (Meets (base [{ thread 0 with arrived := [(0, 0)] }]) 0xD1 { a := .lit 0 } fun x => rel .tm x &&
      x.parts.all fun lt => lt.2.arrival 0 == some (x.team.barrier 0).phase) ∧
    (∀ p ∈ [(0xD2, { a := .lit 0 }), (0xD3, { a := .lit 3, b := .v 2 }), (0xD4, { a := .lit 3, b := .v 2 }),
      (0xD5, { d := .v 8, a := .lit 3, b := .v 2 }), (0xD6, { d := .v 8, a := .lit 3 })], Meets two p.1 p.2 yes) ∧
    [evDone 0 0 true, evDone 0 1 true, evDone 3 1 true, evDone 1 3 false, evDone 3 3 false] = [true, false, true, false, true] ∧
    ((base [blockedIn (.barrier 3 0)]).team? uid).any (fun t => t.unreachable && t.threads.all fun th => !th.handler && th.pend == [])
      = true ∧
    ((withTeam two fun t => { t with barriers := List.replicate 16 ⟨0, 2⟩ }).team? uid).any
      (fun t => t.threads.length ≤ (t.barrier 15).count) = true :=
  ⟨meets (by decide +kernel), meets (by decide +kernel), meets (by decide +kernel), all_meet (by decide +kernel),
    by decide +kernel, by decide +kernel, by decide +kernel⟩

def pooled : State :=
  { hosts [{ thread 0 with v := [(4, 0x10000)] }] with
    offices := [⟨0, 1, 5, 6, 1⟩]
    teams := (hosts [blockedIn .idle]).teams, pool := [⟨0, 1, false, 0x10000, 0, 0, [1, 2], 9, false⟩] }

theorem test_witness_TasksAndOffices :
    (Meets (hosts [{ thread 0 with v := [(4, 0x10000)] }]) 0xD7 { d := .v 8, a := .v 4, b := .lit 127 } fun x => rel .pk x &&
      x.recordReady x.s && x.parts.all fun lt => [0x10, 0x11, 0x12].all fun c => (recordErr c x lt).isNone) ∧
    (Meets (hosts [thread 0]) 0xD8 {} fun x => rel .cl x && x.grid.lrec.taskHost) ∧
    (Meets (hosts [thread 0]) 0xD9 { d := .v 8, a := .lit (-1), b := .v 2, c := .v 4 } fun x => rel .pk x &&
      x.parts.all fun lt => x.a lt 32 == 2 ^ 32 - 1) ∧
    (Meets (hosts [thread 0]) 0xD9 { d := .v 8, a := .lit (-2), b := .v 2, c := .v 4 } fun x =>
      x.parts.all fun lt => x.a lt 32 != 2 ^ 32 - 1) ∧
    Meets pooled 0xDA { d := .v 8, a := .lit 0 } yes ∧
    (let s : State := { pooled with marks := [] }
     (s.pool.headD ⟨1, 0, false, 0, 0, 0, [], 0, false⟩).readyWith (s.evBits 0 1).toNat = true ∧
       s.teams.any (fun t => t.pkCluster == 0 && s.ctxOf t == 1 && s.canHost t && decide (t.threads.map (·.tid)).Nodup) = true) :=
  ⟨meets (by decide +kernel), meets (by decide +kernel), meets (by decide +kernel), meets (by decide +kernel),
    meets (by decide +kernel), by decide +kernel⟩

/-- A stage loop of 4 iterations, window 2; thread 0 holds the first, thread 1 none. -/
def staged : State :=
  withTeam (base [{ thread 0 with held := some 0, ljoined := 1 }, { thread 1 with ljoined := 1 }]) fun t =>
    { t with lstarted := 1, board := some { n := 4, w := 2, homewave := false, next := 1 } }

theorem test_witness_StageInstructions :
    (Meets two 0xDB { a := .lit 4, b := .lit 1 } fun x => x.team.board.isNone && x.parts.all fun lt =>
      decide (1 ≤ x.a lt 32 ∧ x.a lt 32 ≤ 2 ^ 32 - 2 ∧ 1 ≤ x.b lt 32 ∧ x.b lt 32 ≤ 64 ∧ lt.2.ljoined = x.team.lstarted)) ∧
    (Meets staged 0xDC { d := .v 8 } fun x => rel .tm x && x.parts.all (fun lt => lt.2.ljoined != 0) &&
      x.parts.any fun lt => lt.2.held.isSome) ∧
    (Meets (withTeam staged fun t => { t with threads := t.threads.drop 1 }) 0xDC { d := .v 8 } fun x =>
      x.parts.all fun lt => lt.2.ljoined != 0 && lt.2.held.isNone) ∧
    (let only : State := withTeam staged fun t => { t with threads := t.threads.take 1 }
     (Meets only 0xDD { a := .lit 254 } fun x => rel .tm x && x.parts.all fun lt => (stadvErr x lt).isNone) ∧
     (Meets only 0xDE { a := .lit 254 } fun x => rel .tm x && x.parts.all fun lt => (stageOperandErr x lt).isNone && (stjmpBackErr x lt).isNone) ∧
     (Meets only 0xE0 {} fun x => rel .tm x && x.parts.all fun lt => (notHolding x lt).isNone)) ∧
    (Meets (withTeam staged fun t => { t with threads := t.threads.take 1 }) 0xDF { a := .lit 254 } fun x =>
      x.parts.all fun lt => (stageOperandErr x lt).isNone) ∧
    Meets staged 0xE1 { d := .v 8, a := .lit 0 } yes :=
  ⟨meets (by decide +kernel), meets (by decide +kernel), meets (by decide +kernel),
    ⟨meets (by decide +kernel), meets (by decide +kernel), meets (by decide +kernel)⟩, meets (by decide +kernel), meets (by decide +kernel)⟩

/-- A launch record of one thread at 0x10000, in V16 to V47. -/
def recordRegs : List (Nat × Word) :=
  [(16, 0x10000), (18, 1), (19, 0x10001), (20, 0x10001), (21, 0x80001), (24, 0x10000)]

theorem test_witness_LaunchInstructions :
    (let s := base [{ thread 0 with v := (4, 0x10000) :: recordRegs }]
     Meets s 0xE2 { d := .v 8, a := .lit 0, c := .v 16 } fun x => rel .pk x && x.recordReady x.s && x.parts.all fun lt =>
        lt.2.tid == 0 && (x.launchStatus x.s lt).isNone && !x.s.poisonedVa (.die 0) 1 (x.a lt 64) 128 &&
          [0x10, 0x11, 0x12].all fun c => (recordErr c x lt).isNone) ∧
    (Meets (base [{ thread 0 with v := [(4, 0x10004)] }]) 0xE2 { d := .v 8, a := .v 4 } fun x => x.recordReady x.s && x.parts.all fun lt =>
        (x.launchStatus x.s lt).isSome) ∧
    Meets two 0xE3 {} (rel .pk) ∧
    (Meets mem2 0xE4 { a := .v 4 } fun x => x.parts.all fun lt => x.a lt 64 % 4 == 0 && (x.s.readVa (.die 0) 1 (x.a lt 64) 4).toOption.isSome) ∧
    (Meets (hosts [thread 0]) 0xE5 { d := .v 8, a := .lit 16, b := .lit 0 } fun x => x.grid.lrec.taskHost) ∧
    (Meets (hosts [thread 0]) 0xE6 { d := .v 8, a := .lit 16, b := .lit 0 } fun x => x.grid.lrec.taskHost) ∧
    ([0, 1].map fun v => let s := { mem2 with mem := Memory.write mem2.mem (cellsAt 0x40000 [BitVec.ofNat 8 v]) }
     (s.issue? 0xE4 { a := .v 4 }).map fun x => x.parts.map fun lt =>
       (s.demandVa x.team.tlb 1 (x.a lt 64) 4).joinZero x.team lt.2.tid (x.a lt 64)) = [some [true, true], some [false, false]] ∧
    ((base [blockedIn (.join 0x10000)]).thread? uid 0).any (fun th => th.blocked.isSome) = true ∧
    ([two, storing].map fun s => storesDone s (.range 0 4) .pk uid 0 s.seq) = [true, false] ∧
    ([0x10000, 0x90000].map fun va => (two.readVa (.core 0) 1 va 4).toOption.isSome && !two.poisonedVa (.core 0) 1 va 4) = [true, false] ∧
    ((withTeam (hosts [blockedIn (.grow true 16 0 .unused)]) fun t => { t with grows := [0] }).team? uid).map (·.growOrder) = some [0] ∧
    ((withTeam (hosts [blockedIn (.grow true 16 0 .unused)]) fun t => { t with grows := [0] }).team? uid).any (fun t =>
      (withTeam (hosts [blockedIn (.grow true 16 0 .unused)]) fun t => { t with grows := [0] }).shrinkOk t 16 0) = true :=
  ⟨meets (by decide +kernel), meets (by decide +kernel), meets (by decide +kernel), meets (by decide +kernel),
    meets (by decide +kernel), meets (by decide +kernel), by decide +kernel, by decide +kernel⟩

/-- The waybill check's first refusals: an offset that is misaligned; a control word of another version; zero hops; 16 hops and
a hop index that is not zero; a checksum that differs. -/
theorem test_witness_FabricInstructions :
    (∀ p ∈ [(0xF1, { a := .lit (-1), b := .v 4, c := .lit 0 }), (0xF4, { d := .v 8, a := .lit 0 }), (0xF5, { d := .v 8, a := .lit 63 })],
      Meets mem2 p.1 p.2 yes) ∧
    (Meets mem2 0xF1 { a := .lit (-1), b := .v 4, c := .lit 0 } fun x => noNack x && x.parts.all fun lt => fabricReady x x.s lt &&
      (fabricLocalErr x lt).isNone && (remoteAlignErr x lt).isNone && (wbPoisoned x lt).isNone && (waybillErr x lt).isNone) ∧
    (Meets mem2 0xF4 { d := .v 8, a := .lit 0 } fun x => noNack x && x.parts.all fun lt => fabricReady x x.s lt &&
      (fabricLocalErr x lt).isNone && (wbPoisoned x lt).isNone) ∧
    (Meets mem2 0xF5 { d := .v 8, a := .lit 63 } fun x => noNack x && x.parts.all fun lt => (tmapqPoisoned x lt).isNone) ∧
    ((two.ctx? 1).map fun c => [(1, 1), (0, 2), (0, 1), (0, 0x111), (0, 0x301)].map fun p => two.wbCheck 0 c p.1 p.2)
      = some [some (0x0B, 0), some (1, 0), some (2, 0), some (2, 0), some (3, 0)] :=
  ⟨all_meet (by decide +kernel), meets (by decide +kernel), meets (by decide +kernel), meets (by decide +kernel), by decide +kernel⟩

/-! ### The other agents -/

def msg (what : MsgKind) : Msg :=
  { id := 50, cluster := 0, line := 0x800, uid, tid := 0, op := 50, ctx := 1, va := 0x10000, size := 4, what }

def carrying (what : MsgKind) : State := { two with msgs := [msg what] }

theorem test_witness_MemorySystemSteps :
    ([MsgKind.write [(0x40000, 1)] true, .read 3 true [] [⟨uid, 0, 1, 0, 0x10060, 0x40060, 4, []⟩], .dram 0 true [] [], .fill 0 0 true [] [],
      .atomic ⟨0x84, 0, .n32, 0x40000, 1, 0⟩ none, .ack [] true none 0 none, .grantReq [], .grant 0 [], .recall, .release].all fun k =>
        let s := carrying k
        (s.msg? 50).any (fun m => s.first m && s.crosses m && m.arrived == 0 && decide (m.line < 2 ^ 41)) && (s.holder? 0x800).isNone && (!s.recalling 0x800 || k == .recall || k == .release)
          && (s.refusal 1 0x40000 1).isNone && !s.poisoned (0x800 * 128 + 96) 32) = true ∧
    Memory.wf two.mem = true ∧ (two.xlate (.die 3) 1 (1 * 2 ^ 16)).toOption.isSome = true := by decide +kernel

def courier (what : CourierOp) (state : CmdState) (guardSlot : Option Nat := none) : Courier :=
  { id := 60, core := 0, uid, tid := 0, ctx := 1, gid := 1, pc := 0x10000, what, guardSlot, batch := 0, number := 1, state }

def mx (what : MatrixOp) (state : CmdState) : MatrixCmd :=
  { id := 61, core := 0, uid, tid := 0, ctx := 1, gid := 1, pc := 0x10000, opcode := 0xC3, td := 0, what, guardSlot := none, state }

/-- A local copy that can run and one whose source is beyond the local memory; a slot command; a guard slot in each state; a swap
and a MLOADW of a descriptor whose base is not mapped; parcels and leases of each sort. -/
theorem test_witness_EngineSteps :
    (let s := { two with couriers := [courier (.cpy true true 64 0 16) .running] }
     (s.couriers.find? (·.id == 60)).any (fun k => (s.team? uid).any fun t => decide ((k.plan s t).err = none)) = true) ∧
    (let s := { two with couriers := [courier (.cpy true false 64 0x90000 16) .running] }
     (s.couriers.find? (·.id == 60)).any (fun k => (s.team? uid).any fun t => (k.plan s t).err.isSome) = true) ∧
    (let s := { ringed 0x1001 with couriers := [courier (.cpySlot true 0 0 0 256 16) .running] }
     (s.couriers.find? (·.id == 60)).any (fun k => (s.team? uid).any fun t => decide ((k.plan s t).err = none)
       && k.what.slot? == some (0, 0) && t.locWord 0x40 % 4 == 1 && decide (16 ≤ t.locWord 0x40 / 256)) = true) ∧
    ([GuardSlot.unresolved, .false, .true].map fun g => { withTeam two fun t => { t with guards := [g] } with
        couriers := [courier (.cpy true true 64 0 16) .queued (some 0)] }.guardOf uid (some 0)) = [.unresolved, .false, .true] ∧
    (let s := { two with matrix := [mx .swap .queued] }
     (s.matrixTeam 0).any (fun t => (nextStart s [] (s.mxQueue t.uid)).isSome && !(s.engine t.uid).stopped && !(s.engine t.uid).assist)
       = true) ∧
    (let s := { two with matrix := [mx .swap .running] }
     (s.pick [11] ((s.mxRunning uid).filter fun k => (two.team? uid).any fun t => (k.fault? s t).isNone)).isSome = true) ∧
    (let s := { two with matrix := [mx (.loadw (0x90000, 0, 0, 0) 0 0 1 1) .running] }
     (s.pick [11] ((s.mxRunning uid).filter fun k => (two.team? uid).any fun t => (k.fault? s t).isSome)).isSome = true) ∧
    (let run : StreamRun := ⟨⟨0x80, 16, 2, 0x40⟩, 0, ⟨.f32, 1, 1, false, false, [], []⟩, (0, 0, 0, 0), 1, 0, 0, 0, true, false, true⟩
     let s := { two with matrix := [{ mx (.stream (0, 0, 0, 0) 0 1 0 true false true) .running with run := some (.inr run) }]
                         engines := [{ uid, assist := true }] }
     (s.matrixTeam 0).any (fun t => (s.engine t.uid).assist && ((s.mxQueue t.uid).head?.bind (·.run)).isSome) = true) ∧
    ((withParcel .filling 1).parcels.find? (·.id == 0)).isSome = true ∧
    ([12, 0].map fun b => let s := { withParcel .filling 1 with pinBudget := b, parcels := [{ parcel .filling 1 with pages := [(1, ⟨false, 4, true, true, true, .rc, false, false⟩)] }] }
     s.parcels.map s.waysFree) = [[true], [false]] ∧
    (lent.polders.find? (·.id == 0)).any (fun p => decide (lent.now p.die < p.start + p.life)) = true ∧
    (let s : State := { lent with cycles := [10, 0, 0, 0] }
     (s.polders.find? (·.id == 0)).any (fun p => decide (p.start + p.life ≤ s.now p.die)) = true) := by decide +kernel

def queuedTeam : State := withTeam two fun t => { t with status := .queued, started := false, threads := [] }

/-- A save whose blocks can all be written gives its cells. -/
theorem saveCells_isSome (s : State) (c : Context) (die : Nat) (bs : List Nat) : ∀ salt,
    (∀ b ∈ bs, ∃ ps, s.translate (.die die) c.num (c.swapBase.toNat + 65536 * b) 65536 .write = .ok ps ∧
      permissionErr ps .write = none ∧ s.refusedPart c.num .write ps = none) → (s.saveCells c die salt bs).isSome = true := by
  have len : ∀ n lo, (iota lo n).length = n := fun n => by induction n <;> simp_all [iota]
  have wr : ∀ (data : List Byte) va ps, s.translate (.die die) c.num va data.length .write = .ok ps → permissionErr ps .write = none →
      s.refusedPart c.num .write ps = none → ∃ cells, s.writeCells (.die die) c.num va data .write = .ok cells := by
    intro data va ps h1 h2 h3
    simp only [State.writeCells, h1, h2, h3]
    exact ⟨_, rfl⟩
  induction bs with
  | nil => intros; rfl
  | cons b rest ih =>
    intro salt h
    obtain ⟨ps, h1, h2, h3⟩ := h b (.head _)
    obtain ⟨l, hl⟩ := Option.isSome_iff_exists.mp (ih (salt + 1) fun b' hb => h b' (.tail _ hb))
    obtain ⟨cells, hc⟩ := wr (s.saveData salt) _ ps (by rw [State.saveData, List.length_map, len, h1]) h2 h3
    rw [State.saveCells, hc, hl]
    rfl

/-- A team that waits in a JOIN, of a context that is being pre-empted and whose swap area is one large page. -/
def swapping : State :=
  let c : Context := { num := 1, xroot := 0x10001, swapBase := 0x20000000, swapLen := 0x1000000, status := .preempting 9 ⟨0, 1, 0, 0⟩ }
  { base [blockedIn (.join 0x10000)] with contexts := [c], tlb := [⟨.die 0, 1, true, 1, 0x2000, true, true, false, .rc, false, false⟩] }

theorem test_witness_SchedulingSteps_swap :
    (swapping.preemptVictim 0).any (fun t => t.settled && !(swapping.engine t.uid).assist && (swapping.ctx? 1).any fun c =>
      (swapping.saveBlocks c t).any fun bs => bs.all fun b =>
        match swapping.translate (.die 0) 1 (c.swapBase.toNat + 65536 * b) 65536 .write with
        | .ok ps => (permissionErr ps .write).isNone && (swapping.refusedPart 1 .write ps).isNone
        | .error _ => false) = true := by decide +kernel

theorem test_witness_SchedulingSteps :
    two.holders = [] ∧ two.poison = [] ∧ (queuedTeam.nextTeam 0).isSome = true ∧
    two.opens (.cluster 0) .launchUnit = true ∧ two.freedFor ⟨0, 1, 1, false, false, [], [], true⟩ = false ∧ two.hears 0 = true ∧
    (let s := withTeam two fun t => { t with status := .swapped [0] }
     (s.nextTeam 0).isSome && s.storesAcked uid) = true ∧
    (let s := { two with pendingLaunches := [⟨0, 1, 1, [], []⟩] }
     (s.pendingLaunches.find? (·.cluster == 0)).any fun p => (s.ctx? p.ctx).isSome && (s.grid? p.gid).isSome) = true ∧
    (let s : State := { two with staging := [⟨0, 1, 1, false, false, List.replicate 128 0, [], true⟩] }
     (s.staging.filter fun r => r.cluster == 0 && r.ctx == 1 && r.retry).length == 1) = true ∧
    (let s := { two with teams := [], waves := [] }
     (s.grid? 1).any fun g => !s.gridBusy g && g.lrec.joinVa == 0) = true ∧
    (two.translate (.die 0) 1 0x10000 4 .atomic).toOption.any (fun ps => (permissionErr ps .atomic).isNone) = true := by decide +kernel

def preempting : State := { two with contexts := two.contexts.map fun c => { c with status := .preempting 0 ⟨3, 1, 4, 5⟩ } }

theorem test_witness_ContextSteps :
    (two.team? uid).any (fun t => (t.thread? 0).any fun th => two.deliverable t th) = true ∧
    (base [{ thread 0 with handler := true, hcount := 2 ^ 20 }]).teams.any (fun t => t.threads.any (·.overrun)) = true ∧
    (0 < preempting.onCores 1 ∧ 0 < { preempting with cycles := [1, 0, 0, 0] }.now 0) ∧ { preempting with teams := [] }.onCores 1 = 0 ∧
    (two.ctx? (1)).any (fun c => !c.dying) = true ∧
    ([storing, two].map fun (s : State) =>
      let s' : State := { s with contexts := two.contexts.map fun c => { c with status := .dying none } }
      s'.storesLeft 1)
      = [true, false] := by decide +kernel

def remote : Remote := { id := 70, core := 0, uid, tid := 0, ctx := 1, gid := 1, pc := 0, va := 0x10000, what := .rsig 1, waybill := some 0, port := 4, sent := true }

/-- Port 4 in waybill mode, and a packet at its leaf with one hop to the port. -/
def waybills : State := { two with
  remotes := [remote], ports := two.ports.modify 4 fun p => { p with waybillMode := true }
  packets := [{ id := 71, op := 70, hops := [28], switch := 4, inPort := 16, prio := 0 }] }

theorem test_witness_FabricSteps :
    (remote.abroad && remote.mayRefuse 0x21 && remote.mayRefuse 0x25 && !remote.mayRefuse 0x30) = true ∧
    (waybills.listens 4 && !two.listens 4 && waybills.linkUp? (portLeaf 4) 28 && waybills.routeUp (portLeaf 4) remote.back && waybills.isOpen)
      = true ∧
    (two.remoteParts 1 0x11400 8 .atomic).toOption.any (fun ps => ps.any fun p =>
      waybills.reaches (.fabric 0) (.slice (lineHome (lineOf p.addr)).1) [32]) = true ∧
    (two.remoteParts 1 0x90000 8 .write).toOption.isNone = true ∧
    ([0, 1].map fun k => let home := (lineHome (lineOf 0x40000)).1
      let rs : List Remote := [{ remote with waybill := none, at? := some (home + k, 1) }]
      rs.any fun r => r.at?.any fun a => a.1 == home)
      = [true, false] ∧
    (let own : Remote := { remote with what := .amsg 3 [1], waybill := none, at? := some (9, 1) }
     let s := { two with remotes := [own] }
     s.ownArrival 1 0x10000 3 [1] = some own ∧ s.routeUp 1 own.back = true ∧ s.ownArrival 1 0x10000 4 [1] = none) ∧
    (let s := waybills
     (arbitrate (Sparse.get 63 s.served (32 * 4 + 28)) ((s.packets.filter fun p => p.switch == 4 && s.wants p 28).map fun p =>
       { p with age := s.ageOf p })).any (fun p => p.hops.length ≤ p.cur + 1 && s.portReady p && s.linkUp? 4 28) = true ∧
     { s with nocDown := [(4, 28)] }.linkUp? 4 28 = false) ∧
    0 < two.ports.length := by decide +kernel

/-! ### The host -/

theorem test_witness_ContextCommands :
    ([(0x01, 128), (0x02, 128), (0x03, 0), (0x04, 0), (0x05, 0), (0x06, 4), (0x07, 4), (0x08, 20)].all fun p =>
      two.hears 0 && !two.commanding && two.boot == .openFull && cmdFits p.1 p.2) = true ∧
    two.hears 16 = false ∧ (two.readVa (.die 0) 1 0x10000 4).toOption.isSome = true ∧ (two.readVa (.die 0) 1 0x90000 4).toOption.isNone = true ∧
    { two with marks := [⟨0, [14, 1], 0⟩] }.happened [14, 1] = true ∧ two.happened [14, 1] = false ∧
    (two.ueCells (2 ^ 16) (2 ^ 42) [1]).isNone = true ∧ (two.ueCells 1 0x10000 [1]).isSome = true ∧
    (two.launchErr 0 none (List.replicate 128 0)).isSome = true ∧ (two.ctx? 1).isSome = true ∧ (two.ctx? 2).isNone = true ∧
    descriptorBad (List.replicate 128 0) = true ∧ (two.resident? 1).any (fun c => two.grids.any fun g => c.fhGid != some g.gid) = true ∧
    (two.resident? 1).any (fun c => c.status != .stopped) = true ∧
    (!two.pinnedIn 1 0 (2 ^ 52) && !two.accessing 1 0 (2 ^ 52)) = true := by decide +kernel

/-- The status of the reply to a command, with something of the state after. -/
def replied {α : Type} (o : Host.Outcome State Fault Refusal) (f : State → α) : Option (Option Nat × α) :=
  (after o).map fun t => ((t.outbox.getLast?).map (·.status), f t)

def host : CmdHdr := ⟨5, 1, 0, 3⟩

/-- R378: 1 to 1,000,000 microseconds; the reply comes later. -/
theorem test_witness_ContextCommands_preempt :
    ([0, 1, 1000000, 1000001].map fun v => replied (exec (.preempt host (toBytes 4 v)) two) fun t => (t.ctx? 1).map fun c => c.status == .running)
      = [some (some 0x80000047, some true), some (none, some false), some (none, some false), some (some 0x80000047, some true)] := by
  decide +kernel

/-- R46, R403, R385, R396, at their bounds. -/
theorem test_witness_DeviceCommandsAndPower_bounds :
    ([16, 17].map fun v => replied (exec (.pinBudget host (toBytes 4 v)) two) (·.pinBudget)) = [some (some 0, 16), some (some 0x80000047, 12)] ∧
    ([2 ^ 21 - 1, 2 ^ 21].map fun v => replied (exec (.setId host (toBytes 4 v)) State.reset) (·.deviceId.toNat))
      = [some (some 0, 2 ^ 21 - 1), some (some 0x80000047, State.reset.deviceId.toNat)] ∧
    ([65534, 65535].map fun v => replied (exec (.nocAvoid host (toBytes 2 v)) two) (·.nocAvoid.toNat))
      = [some (some 0, 65534), some (some 0x80000047, 0)] ∧
    ([3, 4].map fun v => (replied (exec (.telemetry host (toBytes 4 v)) two) fun _ => ()).bind (·.1)) = [some 0, some 0x80000047] ∧
    (State.reset.keyErased = false ∧ { State.reset with keyErased := true }.keyErased = true) := by decide +kernel

theorem test_witness_DeviceCommandsAndPower :
    ([(9, 4), (10, 4), (11, 4), (12, 2), (13, 4), (13, 1028), (16, 0), (17, 64), (18, 136), (19, 0), (20, 4)].all fun p =>
      State.reset.hears 15 && !State.reset.commanding && State.reset.boot == .openFull && cmdFits p.1 p.2) = true ∧
    cmdFits 12 3 = false ∧ cmdFits 0x20 0 = false ∧ two.mostPinned ≤ 16 ∧ State.reset.contexts = [] ∧ two.contexts ≠ [] := by
  decide +kernel

end Sys2Proof.Tests
end

section
/-! PROOFS. Every step leaves memory in its canonical form: what the meanings of all rows keep, put together. -/

namespace Sys2Proof.Machine

/-- Every row but those of the links, the host's settings, bring-up and power keeps what `Kept` names. -/
theorem exec_kept {i : Instr} {s t : State} (hi : changesDevice i = false) (h : exec i s = .next t) : Kept s t :=
  match i, hi, h with
  | .nop _, _, h => execNop_kept h
  | .bra _, _, h => execBra_kept h
  | .brx _, _, h => execBrx_kept h
  | .call _, _, h => execCall_kept h
  | .callx _, _, h => execCallx_kept h
  | .ret _, _, h => execRet_kept h
  | .exit _, _, h => execExit_kept h
  | .reform _, _, h => execReform_kept h
  | .reconv _, _, h => execReconv_kept h
  | .yield _, _, h => execYield_kept h
  | .trap _, _, h => execTrap_kept h
  | .trapretResume _, _, h => execTrapretResume_kept h
  | .trapretRetry _, _, h => execTrapretRetry_kept h
  | .trapretSkip _, _, h => execTrapretSkip_kept h
  | .assert _, _, h => execAssert_kept h
  | .pause _, _, h => execPause_kept h
  | .sreg _, _, h => execSreg_kept h
  | .swreg _, _, h => execSwreg_kept h
  | .iadd _, _, h => execIadd_kept h
  | .isub _, _, h => execIsub_kept h
  | .imul _, _, h => execImul_kept h
  | .imad _, _, h => execImad_kept h
  | .imulh _, _, h => execImulh_kept h
  | .imin _, _, h => execImin_kept h
  | .imax _, _, h => execImax_kept h
  | .iabs _, _, h => execIabs_kept h
  | .ineg _, _, h => execIneg_kept h
  | .isad _, _, h => execIsad_kept h
  | .iadd3 _, _, h => execIadd3_kept h
  | .lea _, _, h => execLea_kept h
  | .icmp _, _, h => execIcmp_kept h
  | .isel _, _, h => execIsel_kept h
  | .mov _, _, h => execMov_kept h
  | .movl _, _, h => execMovl_kept h
  | .and _, _, h => execAnd_kept h
  | .or _, _, h => execOr_kept h
  | .xor _, _, h => execXor_kept h
  | .not _, _, h => execNot_kept h
  | .andn _, _, h => execAndn_kept h
  | .lop3 _, _, h => execLop3_kept h
  | .shl _, _, h => execShl_kept h
  | .shr _, _, h => execShr_kept h
  | .shra _, _, h => execShra_kept h
  | .rot _, _, h => execRot_kept h
  | .funnel _, _, h => execFunnel_kept h
  | .bfe _, _, h => execBfe_kept h
  | .bfi _, _, h => execBfi_kept h
  | .popc _, _, h => execPopc_kept h
  | .clz _, _, h => execClz_kept h
  | .brev _, _, h => execBrev_kept h
  | .plop _, _, h => execPlop_kept h
  | .pmov _, _, h => execPmov_kept h
  | .cvti _, _, h => execCvti_kept h
  | .idot4 _, _, h => execIdot4_kept h
  | .prmt _, _, h => execPrmt_kept h
  | .shfl _, _, h => execShfl_kept h
  | .vote _, _, h => execVote_kept h
  | .ballot _, _, h => execBallot_kept h
  | .wreduce _, _, h => execWreduce_kept h
  | .wscan _, _, h => execWscan_kept h
  | .matchOp _, _, h => execMatch_kept h
  | .elect _, _, h => execElect_kept h
  | .fadd _, _, h => execFadd_kept h
  | .fsub _, _, h => execFsub_kept h
  | .fmul _, _, h => execFmul_kept h
  | .fma _, _, h => execFma_kept h
  | .fmin _, _, h => execFmin_kept h
  | .fmax _, _, h => execFmax_kept h
  | .fcmp _, _, h => execFcmp_kept h
  | .fclass _, _, h => execFclass_kept h
  | .fscale _, _, h => execFscale_kept h
  | .frnd _, _, h => execFrnd_kept h
  | .fsgn _, _, h => execFsgn_kept h
  | .hfma2 _, _, h => execHfma2_kept h
  | .hadd2 _, _, h => execHadd2_kept h
  | .hmul2 _, _, h => execHmul2_kept h
  | .fdot2 _, _, h => execFdot2_kept h
  | .fdot4 _, _, h => execFdot4_kept h
  | .rcps _, _, h => execRcps_kept h
  | .rsqs _, _, h => execRsqs_kept h
  | .rcp _, _, h => execRcp_kept h
  | .rsq _, _, h => execRsq_kept h
  | .sqrt _, _, h => execSqrt_kept h
  | .exp2 _, _, h => execExp2_kept h
  | .log2 _, _, h => execLog2_kept h
  | .sinp _, _, h => execSinp_kept h
  | .cosp _, _, h => execCosp_kept h
  | .tanh _, _, h => execTanh_kept h
  | .cvtf _, _, h => execCvtf_kept h
  | .cvtfi _, _, h => execCvtfi_kept h
  | .cvtif _, _, h => execCvtif_kept h
  | .pack _, _, h => execPack_kept h
  | .unpack _, _, h => execUnpack_kept h
  | .cvttd _, _, h => execCvttd_kept h
  | .ld _, _, h => execLd_kept h
  | .st _, _, h => execSt_kept h
  | .ldacq _, _, h => execLdacq_kept h
  | .strel _, _, h => execStrel_kept h
  | .atom _, _, h => execAtom_kept h
  | .atomc _, _, h => execAtomc_kept h
  | .atomf _, _, h => execAtomf_kept h
  | .red _, _, h => execRed_kept h
  | .fence _, _, h => execFence_kept h
  | .fencer _, _, h => execFencer_kept h
  | .pref _, _, h => execPref_kept h
  | .pdecl _, _, h => execPdecl_kept h
  | .penter _, _, h => execPenter_kept h
  | .pleave _, _, h => execPleave_kept h
  | .pfree _, _, h => execPfree_kept h
  | .pstat _, _, h => execPstat_kept h
  | .lease _, _, h => execLease_kept h
  | .unlease _, _, h => execUnlease_kept h
  | .lstat _, _, h => execLstat_kept h
  | .cpy _, _, h => execCpy_kept h
  | .cpy2d _, _, h => execCpy2d_kept h
  | .cpytd _, _, h => execCpytd_kept h
  | .seal _, _, h => execSeal_kept h
  | .waitb _, _, h => execWaitb_kept h
  | .kvcommit _, _, h => execKvcommit_kept h
  | .slotinit _, _, h => execSlotinit_kept h
  | .slotres _, _, h => execSlotres_kept h
  | .slottake _, _, h => execSlottake_kept h
  | .slotdone _, _, h => execSlotdone_kept h
  | .slotpeek _, _, h => execSlotpeek_kept h
  | .slotfill _, _, h => execSlotfill_kept h
  | .gres _, _, h => execGres_kept h
  | .gclr _, _, h => execGclr_kept h
  | .embq _, _, h => execEmbq_kept h
  | .tdset _, _, h => execTdset_kept h
  | .tdget _, _, h => execTdget_kept h
  | .mloadw _, _, h => execMloadw_kept h
  | .mswap _, _, h => execMswap_kept h
  | .mstream _, _, h => execMstream_kept h
  | .mzero _, _, h => execMzero_kept h
  | .mstore _, _, h => execMstore_kept h
  | .mwait _, _, h => execMwait_kept h
  | .mmask _, _, h => execMmask_kept h
  | .mstat _, _, h => execMstat_kept h
  | .mxop _, _, h => execMxop_kept h
  | .mresume _, _, h => execMresume_kept h
  | .bar _, _, h => execBar_kept h
  | .bara _, _, h => execBara_kept h
  | .barw _, _, h => execBarw_kept h
  | .evset _, _, h => execEvset_kept h
  | .evclr _, _, h => execEvclr_kept h
  | .evwait _, _, h => execEvwait_kept h
  | .evread _, _, h => execEvread_kept h
  | .taskpost _, _, h => execTaskpost_kept h
  | .taskend _, _, h => execTaskend_kept h
  | .sofput _, _, h => execSofput_kept h
  | .sofget _, _, h => execSofget_kept h
  | .stloop _, _, h => execStloop_kept h
  | .stget _, _, h => execStget_kept h
  | .stadv _, _, h => execStadv_kept h
  | .stjmp _, _, h => execStjmp_kept h
  | .waitl _, _, h => execWaitl_kept h
  | .stend _, _, h => execStend_kept h
  | .stqry _, _, h => execStqry_kept h
  | .launch _, _, h => execLaunch_kept h
  | .launchdep _, _, h => execLaunchdep_kept h
  | .join _, _, h => execJoin_kept h
  | .reggrow _, _, h => execReggrow_kept h
  | .regshrk _, _, h => execRegshrk_kept h
  | .wbsend _, _, h => execWbsend_kept h
  | .amsg _, _, h => execAmsg_kept h
  | .rstore _, _, h => execRstore_kept h
  | .rsig _, _, h => execRsig_kept h
  | .wbchk _, _, h => execWbchk_kept h
  | .tmapq _, _, h => execTmapq_kept h
  | .resultWriteback _ _ _, _, h => execResultWriteback_kept h
  | .l1FillArrival _, _, h => execL1FillArrival_kept h
  | .homeSliceWriteArrival _, _, h => execHomeSliceWriteArrival_kept h
  | .homeSliceReadArrival _, _, h => execHomeSliceReadArrival_kept h
  | .homeSliceAtomicArrival _, _, h => execHomeSliceAtomicArrival_kept h
  | .gddr7ReadReturn _, _, h => execGddr7ReadReturn_kept h
  | .storeAck _, _, h => execStoreAck_kept h
  | .grantRequest _, _, h => execGrantRequest_kept h
  | .recall _, _, h => execRecall_kept h
  | .releaseNotice _, _, h => execReleaseNotice_kept h
  | .grant _, _, h => execGrant_kept h
  | .walkComplete _ _ _, _, h => execWalkComplete_kept h
  | .mereageRelease _ _ _, _, h => execMereageRelease_kept h
  | .pauseExpire _ _, _, h => execPauseExpire_kept h
  | .barrierUnreachable _, _, h => execBarrierUnreachable_kept h
  | .taskGather _, _, h => execTaskGather_kept h
  | .fillComplete _, _, h => execFillComplete_kept h
  | .evictionComplete _, _, h => execEvictionComplete_kept h
  | .leaseExpiry _, _, h => execLeaseExpiry_kept h
  | .courierCommandStart _, _, h => execCourierCommandStart_kept h
  | .slotBytesLanded _ _, _, h => execSlotBytesLanded_kept h
  | .courierCommandComplete _, _, h => execCourierCommandComplete_kept h
  | .courierCommandFault _, _, h => execCourierCommandFault_kept h
  | .matrixCommandStart _, _, h => execMatrixCommandStart_kept h
  | .matrixCommandComplete _, _, h => execMatrixCommandComplete_kept h
  | .matrixCommandFault _, _, h => execMatrixCommandFault_kept h
  | .assistComplete _, _, h => execAssistComplete_kept h
  | .teamDispatch _, _, h => execTeamDispatch_kept h
  | .swapOut _, _, h => execSwapOut_kept h
  | .swapIn _, _, h => execSwapIn_kept h
  | .teamMigration _ _, _, h => execTeamMigration_kept h
  | .launchAccept _, _, h => execLaunchAccept_kept h
  | .constantCopy _, _, h => execConstantCopy_kept h
  | .dlrDrain _, _, h => execDlrDrain_kept h
  | .stagingRetry _ _, _, h => execStagingRetry_kept h
  | .gridComplete _, _, h => execGridComplete_kept h
  | .reportDelivery _, _, h => execReportDelivery_kept h
  | .handlerOverrun _ _, _, h => execHandlerOverrun_kept h
  | .preemptReset _, _, h => execPreemptReset_kept h
  | .preemptComplete _, _, h => execPreemptComplete_kept h
  | .uncorrectable _, _, h => execUncorrectable_kept h
  | .containmentComplete _, _, h => execContainmentComplete_kept h
  | .remoteAck _, _, h => execRemoteAck_kept h
  | .fabricNack _ _, _, h => execFabricNack_kept h
  | .remoteStoreArrival _ _ _, _, h => execRemoteStoreArrival_kept h
  | .wbsendArrival _ _ _, _, h => execWbsendArrival_kept h
  | .rsigArrival _ _ _, _, h => execRsigArrival_kept h
  | .amsgArrival _ _ _ _, _, h => execAmsgArrival_kept h
  | .packetForward _ _, _, h => execPacketForward_kept h
  | .packetAgeTick _, _, h => execPacketAgeTick_kept h
  | .hostUeWrite _ _ _, _, h => execHostUeWrite_kept h
  | .hostUeRead _ _ _, _, h => execHostUeRead_kept h
  | .hostLaunch _ _, _, h => execHostLaunch_kept h
  | .contextLoad _ _, _, h => execContextLoad_kept h
  | .contextUnload _ _, _, h => execContextUnload_kept h
  | .contextResume _ _, _, h => execContextResume_kept h
  | .contextKill _ _, _, h => execContextKill_kept h
  | .preempt _ _, _, h => execPreempt_kept h
  | .flip _ _, _, h => execFlip_kept h
  | .xlateInval _ _, _, h => execXlateInval_kept h
  | .telemetry _ _, _, h => execTelemetry_kept h
  | .portMode _ _, _, h => execPortMode_kept h
  | .amLoad _ _, _, h => execAmLoad_kept h
  | .identity _ _, _, h => execIdentity_kept h
  | .unknownCommand _ _ _, _, h => execUnknownCommand_kept h
  | .linkFailure _, hi, _ => nomatch hi
  | .linkUp _, hi, _ => nomatch hi
  | .pinBudget _ _, hi, _ => nomatch hi
  | .nocAvoid _ _, hi, _ => nomatch hi
  | .setId _ _, hi, _ => nomatch hi
  | .attest _ _, hi, _ => nomatch hi
  | .lifecycle _ _, hi, _ => nomatch hi
  | .hostReset _ _, hi, _ => nomatch hi
  | .powerGood, hi, _ => nomatch hi
  | .bringUpStepDone _, hi, _ => nomatch hi
  | .powerThrottle _, hi, _ => nomatch hi
  | .junctionOvertemp, hi, _ => nomatch hi
  | .inputVoltageFault, hi, _ => nomatch hi

/-- The rows that change the device's own state leave a canonical memory canonical too. -/
theorem exec_wf_of_changesDevice {i : Instr} {s t : State} (hi : changesDevice i = true) (h : exec i s = .next t)
    (hs : Memory.wf s.mem = true) : Memory.wf t.mem = true := by
  cases i with
  | linkFailure _ => exact execLinkFailure_wf h hs
  | linkUp _ => exact execLinkUp_wf h hs
  | pinBudget _ _ => exact execPinBudget_wf h hs
  | nocAvoid _ _ => exact execNocAvoid_wf h hs
  | setId _ _ => exact execSetId_wf h hs
  | attest _ _ => exact execAttest_wf h hs
  | lifecycle _ _ => exact execLifecycle_wf h hs
  | hostReset _ _ => exact execReset_wf h hs
  | powerGood => exact execPowerGood_wf h hs
  | bringUpStepDone _ => exact execBringUpStepDone_wf h hs
  | powerThrottle _ => exact execPowerThrottle_wf h hs
  | junctionOvertemp => exact execJunctionOvertemp_wf h hs
  | inputVoltageFault => exact execInputVoltageFault_wf h hs
  | _ => cases hi

/-- Every meaning leaves a canonical memory canonical. -/
theorem exec_wf {i : Instr} {s t : State} (h : exec i s = .next t) (hs : Memory.wf s.mem = true) :
    Memory.wf t.mem = true := by
  cases hi : changesDevice i with
  | false => exact (exec_kept hi h).mem hs
  | true => exact exec_wf_of_changesDevice hi h hs

theorem State.settle_wf {s : State} (hs : Memory.wf s.mem = true) : Memory.wf s.settle.mem = true :=
  (State.settle_kept (Kept.refl s)).mem hs

end Sys2Proof.Machine
end

section
open Sys2Proof Sys2Proof.Machine

/-- Settles O7: the turn, the meaning that it comes to, and the end of the step each keep the canonical form. -/
theorem memoryStaysCanonical : Obligations.MemoryStaysCanonical := by
  intro s t hs h
  have ht : Memory.wf s.turn.1.mem = true := State.turn_wf hs
  unfold step at h
  rcases hu : s.turn with ⟨u, _ | i⟩ <;> rw [hu] at h ht <;> dsimp only at h
  · rw [← Host.Outcome.next.inj h]
    exact State.settle_wf ht
  · cases hv : exec i u with
    | next v =>
      rw [hv] at h
      rw [← Host.Outcome.next.inj h]
      refine State.settle_wf ?_
      split
      · exact ht
      · exact exec_wf hv ht
    | fault _ => rw [hv] at h; cases h
    | refused _ => rw [hv] at h; cases h

/-- Settles O5: each field of the reset state has its value by definition; no port is in waybill mode, and no byte is listed. -/
theorem resetState : Obligations.ResetState := by
  have hports : ∀ p ∈ State.reset.ports, p.waybillMode = false := fun p hp => by
    rw [List.eq_of_mem_replicate hp]
  have hmem : ∀ a, Memory.read State.reset.mem a = 0 := fun _ => rfl
  exact ⟨rfl, rfl, rfl, rfl, rfl, hports, hmem, rfl, rfl, rfl, rfl, rfl, rfl, rfl, rfl, rfl, rfl, rfl, rfl, rfl, rfl, rfl,
    rfl, rfl, rfl, rfl, rfl⟩
end

section
/-! PROOFS. Facts about bytes, and about messages between L1 slices and home slices. -/

namespace Sys2Proof.Machine

/-! ## Bytes -/

/-- The bytes of a number hold it, as far as they go. -/
theorem ofBytes_toBytes (n : Nat) : ∀ x, ofBytes (toBytes n x) = x % 256 ^ n := by
  induction n with
  | zero => intro x; simp [toBytes, ofBytes, Nat.mod_one]
  | succ n ih =>
    intro x
    have hb : (BitVec.ofNat 8 x).toNat = x % 256 := BitVec.toNat_ofNat x 8
    rw [toBytes, ofBytes, ih, hb, Nat.pow_succ', Nat.mod_mul]

/-- The bytes of a number at an address, one by one. -/
theorem cellsAt_toBytes (n : Nat) : ∀ a v, cellsAt a (toBytes n v)
    = (List.range n).map fun k => (a + k, BitVec.ofNat 8 (v / 256 ^ k)) := by
  induction n with
  | zero => intro a v; rfl
  | succ n ih =>
    intro a v
    have hk : ∀ k, (a + 1 + k, BitVec.ofNat 8 (v / 256 / 256 ^ k)) = (a + (k + 1), BitVec.ofNat 8 (v / 256 ^ (k + 1))) := by
      intro k
      rw [Nat.div_div_eq_div_mul, ← Nat.pow_succ', Nat.add_right_comm, Nat.add_assoc]
    rw [toBytes, cellsAt, ih, List.range_succ_eq_map]
    simp only [List.map_cons, List.map_map, Function.comp_def, hk, Nat.succ_eq_add_one, Nat.add_zero, Nat.pow_zero, Nat.div_one]

/-- The bytes that an atomic writes, one by one (R281). -/
theorem AtomicOp.cells_eq (a : AtomicOp) (old : Nat) : a.cells old
    = (a.new old).elim [] fun v => (List.range a.size).map fun k => (a.addr + k, BitVec.ofNat 8 (v / 256 ^ k)) := by
  unfold AtomicOp.cells
  cases a.new old with
  | none => rfl
  | some v => exact cellsAt_toBytes a.size a.addr v

/-! ## Messages -/

/-- A message has become, or has been answered by, one of its identifier, cluster and line that does k. -/
def State.carries (s : State) (m : Msg) (k : MsgKind) : Prop :=
  ∃ x ∈ s.msgs, x.id = m.id ∧ x.cluster = m.cluster ∧ x.line = m.line ∧ x.what = k

/-- A message is still there, whatever it does. -/
def State.keepsMsg (s : State) (m : Msg) : Prop :=
  ∃ x ∈ s.msgs, x.id = m.id ∧ x.cluster = m.cluster ∧ x.line = m.line

theorem State.msg?_spec {s : State} {id : Nat} {m : Msg} (h : s.msg? id = some m) : m ∈ s.msgs ∧ m.id = id :=
  ⟨List.mem_of_find?_eq_some h, by simpa using List.find?_some h⟩

theorem State.keepsMsg_of_mem {s : State} {m : Msg} (h : m ∈ s.msgs) : s.keepsMsg m := ⟨m, h, rfl, rfl, rfl⟩

theorem mem_updWhere {α : Type} {p : α → Bool} {f : α → α} {l : List α} {x : α} (hx : x ∈ l) :
    (if p x then f x else x) ∈ updWhere p f l := List.mem_map_of_mem hx

/-- A message that is there does what it is set to. -/
theorem State.setMsg_carries {u : State} {m : Msg} (k : MsgKind) (h : u.keepsMsg m) : (u.setMsg m.id k).carries m k := by
  obtain ⟨x, hx, hi, hc, hl⟩ := h
  have := mem_updWhere (p := (·.id == m.id)) (f := fun x : Msg => { x with what := k, arrived := 0 }) hx
  rw [if_pos (beq_iff_eq.mpr hi)] at this
  exact ⟨_, this, hi, hc, hl, rfl⟩

/-- A message that is dropped is gone. -/
theorem State.dropMsg_ne (u : State) (id : Nat) : ∀ x ∈ (u.dropMsg id).msgs, x.id ≠ id := fun x hx => by
  simpa using (List.mem_filter.mp hx).2

theorem State.dropLines_keepsMsg {s : State} {m : Msg} {cluster : Nat} {hit : Nat → Bool} (h : s.keepsMsg m) :
    (s.dropLines cluster hit).keepsMsg m := by
  obtain ⟨x, hx, hi, hc, hl⟩ := h
  refine ⟨_, mem_updWhere hx, ?_⟩
  split <;> exact ⟨hi, hc, hl⟩

end Sys2Proof.Machine
end

section
/-! PROOFS. Where no cluster holds a line and no request waits for a recall, home slices recall nothing: a demand access changes
the lines of L2, the marks of the cycle and the counts of bypasses only (R44, R45, R47). -/

namespace Sys2Proof.Machine

/-- No cluster holds a line, and no request waits for a recall. -/
def State.settled (s : State) : Prop := s.holders = [] ∧ ∀ x ∈ s.msgs, x.arrived = 0

/-- What the home slices serve requests by is as before: memory with its poison, the messages, the holders, and what they refuse. -/
structure State.ServesAs (s u : State) : Prop where
  mem : u.mem = s.mem
  msgs : u.msgs = s.msgs
  holders : u.holders = s.holders
  poison : u.poison = s.poison
  refusal : u.refusal = s.refusal

theorem State.ServesAs.trans {s u v : State} (h : s.ServesAs u) (h' : u.ServesAs v) : s.ServesAs v :=
  ⟨h'.mem.trans h.mem, h'.msgs.trans h.msgs, h'.holders.trans h.holders, h'.poison.trans h.poison, h'.refusal.trans h.refusal⟩

theorem State.ServesAs.withL2 {s u : State} (h : s.ServesAs u) (l2 : List L2Line) : s.ServesAs { u with l2 := l2 } :=
  ⟨h.mem, h.msgs, h.holders, h.poison, h.refusal⟩

theorem State.ServesAs.settled {s u : State} (h : s.ServesAs u) (hs : s.settled) : u.settled :=
  ⟨h.holders.trans hs.1, h.msgs ▸ hs.2⟩

theorem State.ServesAs.keepsMsg {s u : State} {m : Msg} (h : s.ServesAs u) (hm : s.keepsMsg m) : u.keepsMsg m := by
  unfold State.keepsMsg
  rwa [h.msgs]

/-- Counting a bypass changes the counts alone (R48). -/
theorem State.countBypass_serves (s : State) (line : Nat) : s.ServesAs (s.countBypass line) := by
  unfold State.countBypass
  split <;> exact ⟨rfl, rfl, rfl, rfl, rfl⟩

theorem State.countBypass_l2 (s : State) (line : Nat) : (s.countBypass line).l2 = s.l2 := by
  unfold State.countBypass
  split <;> rfl

section
variable {s : State} (hs : s.settled)
include hs

theorem State.holder?_settled (line : Nat) : s.holder? line = none := by
  simp [State.holder?, hs.1]

theorem State.endHold_settled (line : Nat) : s.endHold line = s := by
  unfold State.endHold
  rw [State.holder?_settled hs]

theorem State.recallNow_settled (use : State → Nat → BitVec 4 → BitVec 128 → State) (line : Nat) : s.recallNow use line = s := by
  have hw : (s.msgs.filter fun x => x.line == line && x.arrived != 0) = [] := by
    simpa [List.filter_eq_nil_iff] using fun x hx _ => hs.2 x hx
  rw [State.recallNow, State.endHold_settled hs, hw]
  exact State.endHold_settled hs line

theorem State.makeRoom_settled (line : Nat) (pin : Bool) : s.ServesAs (s.makeRoom line pin) := by
  unfold State.makeRoom
  dsimp only
  split
  · exact ⟨rfl, rfl, rfl, rfl, rfl⟩
  · split
    · exact ⟨rfl, rfl, rfl, rfl, rfl⟩
    · rw [State.recallNow_settled hs]
      refine State.ServesAs.withL2 ?_ _
      exact iteInduction (motive := s.ServesAs) (fun _ => ⟨rfl, rfl, rfl, rfl, rfl⟩) fun _ => ⟨rfl, rfl, rfl, rfl, rfl⟩

theorem State.useL2_settled (line : Nat) (filled : BitVec 4) (written : BitVec 128) :
    s.ServesAs (s.useL2 line filled written) := by
  unfold State.useL2
  split
  · exact ⟨rfl, rfl, rfl, rfl, rfl⟩
  · split
    · exact ⟨rfl, rfl, rfl, rfl, rfl⟩
    · exact (State.makeRoom_settled hs line false).trans ⟨rfl, rfl, rfl, rfl, rfl⟩

/-- A demand access is counted and uses a line. -/
theorem State.demand_settled (line : Nat) (filled : BitVec 4) (written : BitVec 128) :
    s.ServesAs ((s.countBypass line).useL2 line filled written) :=
  (s.countBypass_serves line).trans (State.useL2_settled ((s.countBypass_serves line).settled hs) line filled written)

theorem State.dropLines_settled (cluster : Nat) (hit : Nat → Bool) : (s.dropLines cluster hit).settled := by
  refine ⟨hs.1, fun x hx => ?_⟩
  obtain ⟨y, hy, rfl⟩ := List.mem_map.mp hx
  split <;> exact hs.2 y hy

end

end Sys2Proof.Machine
end

section
/-! PROOFS. What a home slice does with a request that it performs at once (R36, R44, R49, R50). -/

namespace Sys2Proof.Machine

/-- Of a read that the home slice does not refuse, the sector leaves. -/
theorem State.performRead_ok {u : State} {m : Msg} {k : Nat} {al : Bool} {ov : List Host.Cell} {ws : List Waiter}
    (hp : u.poison = []) (hr : ∀ w ∈ ws, u.refusal m.ctx w.addr w.count = none) :
    u.performRead m k al ov ws
      = u.setMsg m.id (.fill k (BitVec.ofNat 256 (Memory.num u.mem (m.line * 128 + 32 * k) 32)) al ov ws) := by
  have hf : (ws.findSome? fun w => u.refusal m.ctx w.addr w.count) = none := by simpa using hr
  simp [State.performRead, hf, State.poisoned, hp]

/-- A write that the home slice does not refuse is performed and acknowledged. -/
theorem State.performWrite_ok {u : State} {m : Msg} {bs : List Host.Cell} {early : Bool}
    (hr : ∀ b ∈ bs, u.refusal m.ctx b.1 1 = none) :
    u.performWrite m bs early
      = ((u.perform bs).markL2 m.line 0 (byteMask m.line (bs.map (·.1)))).setMsg m.id (.ack bs early none 0 none) := by
  have hf : (bs.findSome? fun b => u.refusal m.ctx b.1 1) = none := by simpa using hr
  simp only [State.performWrite, hf]

section
variable {s : State} {m : Msg} (hs : s.settled) (hm : s.keepsMsg m)
include hs hm

theorem State.performMsg_write {bs : List Host.Cell} {early : Bool} (hw : m.what = .write bs early)
    (hr : ∀ b ∈ bs, s.refusal m.ctx b.1 1 = none) :
    (s.performMsg m).mem = Memory.write s.mem bs ∧ (s.performMsg m).carries m (.ack bs early none 0 none) := by
  have hu := State.demand_settled hs m.line 0 0
  have h : s.performMsg m = ((s.countBypass m.line).useL2 m.line 0 0).performWrite m bs early := by
    simp only [State.performMsg, State.performBy, hw]
  rw [h, State.performWrite_ok (hu.refusal ▸ hr)]
  exact ⟨congrArg (Memory.write · bs) hu.mem, State.setMsg_carries _ (hu.keepsMsg hm)⟩

/-- Where a read that is performed has its sector in L2, or reads a polder's line, the sector leaves; else the read waits for
GDDR 7 (R44). -/
theorem State.readOrWait_carries {k : Nat} {al : Bool} {ov : List Host.Cell} {ws : List Waiter} (hp : s.poison = [])
    (hr : ∀ w ∈ ws, s.refusal m.ctx w.addr w.count = none) {t : State}
    (ht : t = if isPolderLine m.line || s.l2.any fun l => l.line == m.line && l.valid.getLsbD k then
        ((s.countBypass m.line).useL2 m.line 0 0).performRead m k al ov ws
      else (s.countBypass m.line).setMsg m.id (.dram k al ov ws)) :
    t.mem = s.mem ∧ t.carries m
      (if m.line ≥ 2 ^ 41 ∨ ∃ l ∈ s.l2, l.line = m.line ∧ l.valid.getLsbD k = true
        then .fill k (BitVec.ofNat 256 (Memory.num s.mem (m.line * 128 + 32 * k) 32)) al ov ws else .dram k al ov ws) := by
  have hcond : (isPolderLine m.line || s.l2.any fun l => l.line == m.line && l.valid.getLsbD k) = true
      ↔ m.line ≥ 2 ^ 41 ∨ ∃ l ∈ s.l2, l.line = m.line ∧ l.valid.getLsbD k = true := by
    simp [isPolderLine]
  by_cases hc : m.line ≥ 2 ^ 41 ∨ ∃ l ∈ s.l2, l.line = m.line ∧ l.valid.getLsbD k = true
  · have hv := State.demand_settled hs m.line 0 0
    rw [ht, if_pos (hcond.mpr hc), if_pos hc, State.performRead_ok (hv.poison.trans hp) (hv.refusal ▸ hr), hv.mem]
    exact ⟨hv.mem, State.setMsg_carries _ (hv.keepsMsg hm)⟩
  · have hv := s.countBypass_serves m.line
    rw [ht, if_neg (mt hcond.mp hc), if_neg hc]
    exact ⟨hv.mem, State.setMsg_carries _ (hv.keepsMsg hm)⟩

/-- A prefetch that only a bypass could serve is dropped; any other read leaves with its sector, or waits for GDDR 7 (R44, R288). -/
theorem State.performMsg_read {k : Nat} {al : Bool} {ov : List Host.Cell} {ws : List Waiter} (hw : m.what = .read k al ov ws)
    (hp : s.poison = []) (hr : ∀ w ∈ ws, s.refusal m.ctx w.addr w.count = none) :
    (s.performMsg m).mem = s.mem ∧
      if ws = [] ∧ s.bypassed m.line = true then ∀ x ∈ (s.performMsg m).msgs, x.id ≠ m.id
      else (s.performMsg m).carries m
        (if m.line ≥ 2 ^ 41 ∨ ∃ l ∈ s.l2, l.line = m.line ∧ l.valid.getLsbD k = true
          then .fill k (BitVec.ofNat 256 (Memory.num s.mem (m.line * 128 + 32 * k) 32)) al ov ws else .dram k al ov ws) := by
  by_cases hd : ws = [] ∧ s.bypassed m.line = true
  · have h : s.performMsg m = s.dropMsg m.id := by
      simp only [State.performMsg, State.performBy, hw, hd.1, hd.2, List.isEmpty_nil, Bool.and_self, if_true]
    rw [if_pos hd, h]
    exact ⟨rfl, s.dropMsg_ne m.id⟩
  · rw [if_neg hd]
    have hd' : (ws.isEmpty && s.bypassed m.line) = false := by simpa [List.isEmpty_iff] using hd
    cases al with
    | true =>
      refine State.readOrWait_carries hs hm hp hr ?_
      simp only [State.performMsg, State.performBy, hw, hd', State.countBypass_l2, if_false, if_true, Bool.false_eq_true]
    | false =>
      -- the cluster's copy is invalidated by a read that will not be allocated
      refine State.readOrWait_carries (s := s.dropLines m.cluster (· = m.line)) (State.dropLines_settled hs _ _)
        (State.dropLines_keepsMsg hm) hp hr ?_
      simp only [State.performMsg, State.performBy, hw, hd', State.countBypass_l2, if_false, Bool.false_eq_true]

/-- An atomic performs on the bytes, and its old value is on its way (R49). -/
theorem State.performMsg_atomic {a : AtomicOp} {p : Option Nat} (hw : m.what = .atomic a p) (hp : s.poison = [])
    (hr : s.refusal m.ctx a.addr a.size = none) :
    (s.performMsg m).mem = Memory.write s.mem (a.cells (Memory.num s.mem a.addr a.size)) ∧
      (s.performMsg m).carries m
        (.ack (a.cells (Memory.num s.mem a.addr a.size)) false p (Memory.num s.mem a.addr a.size) none) := by
  let u := s.dropLines m.cluster (· = m.line)
  have hus : u.settled := State.dropLines_settled hs _ _
  have hum : u.keepsMsg m := State.dropLines_keepsMsg hm
  have hv := u.countBypass_serves m.line
  have hvr : (u.countBypass m.line).refusal m.ctx a.addr a.size = none := hv.refusal ▸ hr
  have hvp : (u.countBypass m.line).poisoned a.addr a.size = false := by
    rw [State.poisoned, hv.poison.trans hp, List.any_nil]
  have hvm : (u.countBypass m.line).mem = s.mem := hv.mem
  have hd := State.demand_settled hus m.line (sectorMask (byteMask m.line (iota a.addr a.size)))
    (byteMask m.line ((a.cells (Memory.num s.mem a.addr a.size)).map (·.1)))
  simp only [State.performMsg, State.performBy, hw]
  rw [hvr]
  dsimp only
  rw [hvp, hvm]
  exact ⟨congrArg (Memory.write · _) hd.mem, State.setMsg_carries (u := State.perform _ _) _ (hd.keepsMsg hum)⟩

/-- A grant request makes the cluster the holder, and the grant takes the line's bytes along (R50). -/
theorem State.performMsg_grantReq {ov : List Host.Cell} (hw : m.what = .grantReq ov) :
    (s.performMsg m).mem = s.mem ∧ (m.line, m.cluster) ∈ (s.performMsg m).holders ∧
      (s.performMsg m).carries m (.grant (BitVec.ofNat 1024 (Memory.num s.mem (m.line * 128) 128)) ov) := by
  have hu := State.demand_settled hs m.line 15 0
  simp only [State.performMsg, State.performBy, hw]
  rw [← hu.mem]
  exact ⟨rfl, List.mem_append_right _ (List.mem_singleton.mpr rfl), State.setMsg_carries _ (hu.keepsMsg hm)⟩

end

/-- A request of its kind that comes next, and for which nothing waits, is performed as it arrives. -/
theorem State.arriveIf_settled {s : State} {id : Nat} {m : Msg} {kind : MsgKind → Bool} (hm : s.msg? id = some m)
    (hc : s.comes m = true) (hk : kind m.what = true) (hp : m.line < 2 ^ 41 ∨ s.sameAccess m = [m]) (hs : s.settled)
    (hr : s.recalling m.line = false) : s.arriveIf id kind = s.performMsg m := by
  have ha : m.arrived = 0 := hs.2 m (State.msg?_spec hm).1
  have h : s.arriveIf id kind = s.arrive m := by
    simp [State.arriveIf, hm, hk, ha, hc]
  rw [h]
  unfold State.arrive
  dsimp only
  split
  next hpol =>
    have hge : 2 ^ 41 ≤ m.line := by simpa [isPolderLine] using hpol
    rw [hp.resolve_left (Nat.not_lt.mpr hge)]
    rfl
  next =>
    rw [State.holder?_settled hs, hr]
    rfl

end Sys2Proof.Machine
end

section
/-! PROOFS. Results that fills and acknowledgements bind, and copies in an L1 slice (R35, R37, R50). -/

namespace Sys2Proof.Machine

/-! ## Results -/

/-- A thread after an update that leaves it its number. -/
theorem State.thread?_updThread {s : State} {uid tid : Nat} {f : Thread → Thread} (hf : ∀ th, (f th).tid = th.tid) :
    (s.updThread uid tid f).thread? uid tid = (s.thread? uid tid).map f := by
  have hteam : (s.updThread uid tid f).team? uid = (s.team? uid).map fun t => t.updThread tid f := by
    refine (find_updWhere (p := (·.uid == uid)) (q := (·.uid == uid)) (f := fun t => t.updThread tid f) (fun _ => rfl) s.teams).trans ?_
    cases h : s.teams.find? (·.uid == uid) with
    | none => simp [State.team?, h]
    | some t =>
      have := List.find?_some h
      simp_all [State.team?]
  have hthread : ∀ t : Team, (t.updThread tid f).thread? tid = (t.thread? tid).map f := by
    intro t
    refine (find_updWhere (p := (·.tid == tid)) (q := (·.tid == tid)) (f := f) (fun th => by rw [hf]) t.threads).trans ?_
    cases h : t.threads.find? (·.tid == tid) with
    | none => simp [Team.thread?, h]
    | some th =>
      have := List.find?_some h
      simp_all [Team.thread?]
  rw [State.thread?, hteam, State.thread?]
  cases s.team? uid with
  | none => rfl
  | some t => exact hthread t

theorem State.bind_pending (s : State) (uid tid n first : Nat) (bs : List Byte) :
    (s.bind uid tid n first bs).pending uid tid 
      = Sys2Proof.Machine.answered (updWhere (·.id == n) (·.take first bs) (s.pending uid tid)) := by
  unfold State.bind State.pending
  rw [State.thread?_updThread]
  · cases s.thread? uid tid <;> rfl
  · exact fun _ => rfl

/-- The last part of a result binds it: its value is extended as its type says, and written to its operand (R207, R272). -/
theorem Pend.take_last {p : Pend} (h : p.parts = 1) (first : Nat) (bs : List Byte) :
    (p.take first bs).id = p.id ∧ (p.take first bs).refused = p.refused ∧ (p.take first bs).parts = 0 ∧
      (p.take first bs).writes = operandWrites p.dst p.ty.regBits (extendLoad p.ty (p.acc + ofBytes bs * 256 ^ first)) := by
  simp [Pend.take, h]

/-- A result of which one part is missing, and no part refused, is bound as the part comes. -/
theorem State.bind_last {s : State} {uid tid n : Nat} {p : Pend} (first : Nat) (bs : List Byte) (hp : p ∈ s.pending uid tid)
    (hn : p.id = n) (hparts : p.parts = 1) (href : p.refused = false) :
    ∃ q ∈ (s.bind uid tid n first bs).pending uid tid, q.id = n ∧ q.parts = 0 ∧
      q.writes = operandWrites p.dst p.ty.regBits (extendLoad p.ty (p.acc + ofBytes bs * 256 ^ first)) := by
  obtain ⟨hid, hrefused, h0, hw⟩ := Pend.take_last hparts first bs
  refine ⟨p.take first bs, ?_, hid.trans hn, h0, hw⟩
  have hq := mem_updWhere (p := (·.id == n)) (f := fun q : Pend => q.take first bs) hp
  rw [if_pos (beq_iff_eq.mpr hn)] at hq
  rw [State.bind_pending]
  exact List.mem_filter.mpr ⟨hq, by simp [hrefused, href]⟩

/-! ## Copies -/

/-- Making room for a copy drops copies, and tells home slices of those that were held, by new messages. -/
structure State.DropsCopies (s u : State) : Prop where
  mem : u.mem = s.mem
  teams : u.teams = s.teams
  l1 : ∀ c ∈ u.l1, c ∈ s.l1
  msgs : ∀ x ∈ u.msgs, x ∈ s.msgs ∨ s.seq ≤ x.id

theorem State.DropsCopies.refl (s : State) : s.DropsCopies s := ⟨rfl, rfl, fun _ h => h, fun _ h => .inl h⟩

theorem State.giveUp_drops (s : State) (cluster line : Nat) : s.DropsCopies (s.giveUp cluster line) := by
  refine ⟨rfl, rfl, fun c hc => (List.mem_filter.mp hc).1, fun x hx => ?_⟩
  rcases List.mem_append.mp hx with h | h
  · exact .inl h
  · rw [List.mem_singleton.mp h]
    exact .inr (Nat.le_refl _)

theorem State.l1Way_drops (s : State) (cluster line : Nat) : s.DropsCopies (s.l1Way cluster line).1 := by
  unfold State.l1Way
  dsimp only
  split
  · exact .refl s
  · simp only [State.dropCopies]
    split
    · exact s.giveUp_drops _ _
    · exact ⟨rfl, rfl, fun c hc => (List.mem_filter.mp hc).1, fun _ h => .inl h⟩

/-- A fill that is allocated changes no result, and no message but by new ones. -/
theorem State.allocate_frame (s : State) (m : Msg) (k : Nat) (d : BitVec 256) (ov : List Host.Cell) :
    (s.allocate m k d ov).mem = s.mem ∧ (s.allocate m k d ov).teams = s.teams ∧
      ∀ x ∈ (s.allocate m k d ov).msgs, x ∈ s.msgs ∨ s.seq ≤ x.id := by
  unfold State.allocate
  dsimp only
  split
  · split <;> exact ⟨rfl, rfl, fun _ h => .inl h⟩
  · have h := s.l1Way_drops m.cluster m.line
    exact ⟨h.mem, h.teams, h.msgs⟩

/-! ## A held copy -/

theorem State.holds_acceptBytes (s : State) (c l c' l' : Nat) (bs : List Host.Cell) :
    (s.acceptBytes c' l' bs).holds c l = s.holds c l := by
  have h : (s.acceptBytes c' l' bs).copy? c l
      = (s.copy? c l).map fun x => if x.cluster == c' && x.line == l' then x.update bs else x :=
    find_updWhere (p := fun x : L1Copy => x.cluster == c' && x.line == l') (q := fun x => x.cluster == c && x.line == l)
      (f := fun x => x.update bs) (fun _ => rfl) s.l1
  rw [State.holds, h, State.holds]
  cases s.copy? c l with
  | none => rfl
  | some x =>
    rw [Option.map_some, Option.any_some, Option.any_some]
    split <;> rfl

/-- The elements that are moved to the end are all those that are looked for, or none of them. -/
theorem find?_moved {α : Type} {p q : α → Bool} (h : (∀ x, p x = true → q x = true) ∨ ∀ x, p x = true → q x = false)
    (l : List α) :
    (l.filter (fun x => !q x) ++ l.filter q).find? p = l.find? p := by
  rw [List.find?_append, List.find?_filter, List.find?_filter]
  rcases h with h | h
  · have hn : (l.find? fun a => decide ((!q a) = true ∧ p a = true)) = none := by
      simp only [List.find?_eq_none, decide_eq_true_eq]
      rintro x - ⟨hq, hp⟩
      simp [h x hp] at hq
    have hp : (fun a => decide (q a = true ∧ p a = true)) = p := by
      funext a
      cases hpa : p a with
      | false => simp
      | true => simp [h a hpa]
    rw [hn, hp, Option.none_or]
  · have hn : (l.find? fun a => decide (q a = true ∧ p a = true)) = none := by
      simp only [List.find?_eq_none, decide_eq_true_eq]
      rintro x - ⟨hq, hp⟩
      simp [h x hp] at hq
    have hp : (fun a => decide ((!q a) = true ∧ p a = true)) = p := by
      funext a
      cases hpa : p a with
      | false => simp
      | true => simp [h a hpa]
    rw [hn, hp, Option.or_none]

theorem State.holds_useCopy (s : State) (c l c' l' : Nat) : (s.useCopy c' l').holds c l = s.holds c l := by
  have h : (s.useCopy c' l').copy? c l = s.copy? c l := by
    refine find?_moved ?_ s.l1
    by_cases hcl : c = c' ∧ l = l'
    · obtain ⟨rfl, rfl⟩ := hcl
      exact .inl fun _ hx => hx
    · refine .inr fun x hx => ?_
      simp only [Bool.and_eq_true, beq_iff_eq] at hx
      simpa [hx.1, hx.2] using hcl
  rw [State.holds, h, State.holds]

/-- A kill leaves memory and the L1 slices alone (R379). -/
theorem State.kill_mem_l1 (s : State) (num : Nat) (r : StopRecord) (msg : Option CmdHdr) :
    (s.kill num r msg).mem = s.mem ∧ (s.kill num r msg).l1 = s.l1 := by
  have hpost : ∀ (u : State) (o : Outgoing), u.mem = s.mem ∧ u.l1 = s.l1 → (u.post o).mem = s.mem ∧ (u.post o).l1 = s.l1 := by
    intro u o h
    unfold State.post
    split <;> exact h
  have hstop : ∀ (u : State) (go : Context → Context), u.mem = s.mem ∧ u.l1 = s.l1 →
      (((u.updCtx num go).stopWork num).takePlace 0 [15, num] 0).mem = s.mem ∧
        (((u.updCtx num go).stopWork num).takePlace 0 [15, num] 0).l1 = s.l1 := fun _ _ h => h
  unfold State.kill
  split
  · exact ⟨rfl, rfl⟩
  · dsimp only
    split
    · exact ⟨rfl, rfl⟩
    · refine hstop _ _ ?_
      split
      · refine hpost _ _ ?_
        split
        · exact hpost _ _ ⟨rfl, rfl⟩
        · exact ⟨rfl, rfl⟩
      · split
        · exact hpost _ _ ⟨rfl, rfl⟩
        · exact ⟨rfl, rfl⟩

/-- Memory, and whether a cluster may use its copy of a line, are as before. -/
def State.SameHold (c l : Nat) (s u : State) : Prop := u.mem = s.mem ∧ u.holds c l = s.holds c l

theorem State.heldAtomic_sameHold (s : State) (c l : Nat) (d : Sender) (a : AtomicOp) (p : Option Nat) :
    State.SameHold c l s (s.heldAtomic d a p) := by
  have haccept : ∀ (u : State) (bs : List Host.Cell), State.SameHold c l u (u.acceptStore d (lineOf a.addr) bs true) :=
    fun u bs => ⟨rfl, (State.holds_useCopy (u.acceptBytes d.cluster (lineOf a.addr) bs) c l d.cluster (lineOf a.addr)).trans
      (State.holds_acceptBytes u c l d.cluster (lineOf a.addr) bs)⟩
  unfold State.heldAtomic
  split
  · exact ⟨rfl, rfl⟩
  · dsimp only
    split
    · obtain ⟨hm, hl⟩ := s.kill_mem_l1 d.ctx
        ⟨2, Cause.uncorrectable, false, none, s.poisonUnit d.ctx d.va * 2 ^ 60 + d.va % 2 ^ 52⟩ none
      refine ⟨hm, ?_⟩
      unfold State.holds State.copy?
      exact congrArg (fun l1 => Option.any (·.held) (List.find? _ l1)) hl
    · cases p <;> split
      · exact ⟨rfl, rfl⟩
      · exact haccept _ _
      · exact ⟨rfl, rfl⟩
      · exact haccept _ _

theorem State.runQueued_sameHold (c l : Nat) : ∀ (ms : List Msg) (s : State), State.SameHold c l s (s.runQueued ms)
  | [], _ => ⟨rfl, rfl⟩
  | m :: rest, s => by
    unfold State.runQueued
    split
    · next a p _ =>
      obtain ⟨hm, hl⟩ := State.heldAtomic_sameHold { s with msgs := s.msgs.filter (·.id != m.id) } c l m.sender a p
      obtain ⟨hm', hl'⟩ := State.runQueued_sameHold c l rest _
      exact ⟨hm'.trans hm, hl'.trans hl⟩
    · exact State.runQueued_sameHold c l rest s

/-- A grant leaves the cluster with the line (R50). -/
theorem State.takeGrant_holds (s : State) (m : Msg) (d : BitVec 1024) (ov : List Host.Cell) :
    (s.takeGrant m d ov).mem = s.mem ∧ (s.takeGrant m d ov).holds m.cluster m.line = true := by
  let u : State := { s with msgs := s.msgs.filter (·.id != m.id)
                            l1 := s.l1.filter fun (c : L1Copy) => !(c.cluster == m.cluster && c.line == m.line) }
  let r := u.l1Way m.cluster m.line
  let copy : L1Copy := ⟨m.cluster, m.line, r.2, overlayData 1024 (m.line * 128) d ov, r.1.soundSectors m.line, true⟩
  let v : State := { r.1 with l1 := r.1.l1 ++ [copy] }
  have hr := u.l1Way_drops m.cluster m.line
  have hv : v.holds m.cluster m.line = true := by
    have hnone : r.1.l1.find? (fun c => c.cluster == m.cluster && c.line == m.line) = none := by
      rw [List.find?_eq_none]
      intro c hc hcl
      have := (List.mem_filter.mp (hr.l1 c hc)).2
      simp [hcl] at this
    have hcopy : v.copy? m.cluster m.line = some copy := by
      show (r.1.l1 ++ [copy]).find? (fun c => c.cluster == m.cluster && c.line == m.line) = some copy
      rw [List.find?_append, hnone]
      simp [copy]
    rw [State.holds, hcopy]
    rfl
  obtain ⟨hm, hl⟩ := State.runQueued_sameHold m.cluster m.line (v.msgs.filter fun x => x.cluster == m.cluster && x.line == m.line) v
  exact ⟨hm.trans hr.mem, hl.trans hv⟩

end Sys2Proof.Machine
end

section
/-! PROOFS. Answers, grants, recalls and release notices as they reach their cluster or home slice (R36, R37, R50 to R52), and a walk that
ends in the die's TLB (R15). -/

namespace Sys2Proof.Machine

section
variable {s : State} {id : Nat} {m : Msg} (hm : s.msg? id = some m) (hc : s.comes m = true)
include hm hc

/-- The sector comes back from GDDR 7 (R44). -/
theorem State.dramReturn_carries {k : Nat} {al : Bool} {ov : List Host.Cell} {ws : List Waiter} (hw : m.what = .dram k al ov ws)
    (hs : s.settled) (hp : s.poison = []) (hr : ∀ w ∈ ws, s.refusal m.ctx w.addr w.count = none) :
    (s.dramReturn id).mem = s.mem ∧
      (s.dramReturn id).carries m (.fill k (BitVec.ofNat 256 (Memory.num s.mem (m.line * 128 + 32 * k) 32)) al ov ws) := by
  have hu := State.useL2_settled hs m.line (BitVec.ofNat 4 (2 ^ k)) 0
  have h : s.dramReturn id = (s.useL2 m.line (BitVec.ofNat 4 (2 ^ k)) 0).performRead m k al ov ws := by
    simp [State.dramReturn, hm, hw, hc]
  rw [h, State.performRead_ok (hu.poison.trans hp) (hu.refusal ▸ hr), hu.mem]
  exact ⟨hu.mem, State.setMsg_carries _ (hu.keepsMsg (State.keepsMsg_of_mem (State.msg?_spec hm).1))⟩

/-- A fill binds what waits for it, and is gone. -/
theorem State.fillArrival_frame {k : Nat} {d : BitVec 256} {al : Bool} {ov : List Host.Cell} {ws : List Waiter}
    (hw : m.what = .fill k d al ov ws) (hid : id < s.seq) :
    (s.fillArrival id).mem = s.mem ∧ (∀ x ∈ (s.fillArrival id).msgs, x.id ≠ id) ∧
      (s.fillArrival id).teams
        = (ws.foldl (fun u w => u.bind w.uid w.tid w.pend w.first (w.bytes m.line k d)) (s.dropMsg id)).teams := by
  let u := ws.foldl (fun u w => u.bind w.uid w.tid w.pend w.first (w.bytes m.line k d)) (s.dropMsg id)
  have hbind : ∀ (ws : List Waiter) (v : State),
      let t := ws.foldl (fun u w => u.bind w.uid w.tid w.pend w.first (w.bytes m.line k d)) v
      t.mem = v.mem ∧ t.msgs = v.msgs ∧ t.seq = v.seq := by
    intro ws
    induction ws with
    | nil => exact fun _ => ⟨rfl, rfl, rfl⟩
    | cons w rest ih => exact fun v => ih _
  obtain ⟨hum, humsgs, huseq⟩ := hbind ws (s.dropMsg id)
  have hne : ∀ x ∈ u.msgs, x.id ≠ id := fun x hx => s.dropMsg_ne id x (humsgs ▸ hx)
  have h : s.fillArrival id = if al then u.allocate m k d ov else u := by
    simp [State.fillArrival, hm, hw, hc, u]
  rw [h]
  split
  · obtain ⟨hmem, hteams, hmsgs⟩ := u.allocate_frame m k d ov
    refine ⟨hmem.trans hum, fun x hx => ?_, hteams⟩
    rcases hmsgs x hx with hold | hnew
    · exact hne x hold
    · have : u.seq = s.seq := huseq
      omega
  · exact ⟨hum, hne, rfl⟩

/-- An acknowledgement that refuses nothing binds its value, and is gone. -/
theorem State.storeAck_ok {bs : List Host.Cell} {early : Bool} {p : Option Nat} {v : Nat} (hw : m.what = .ack bs early p v none) :
    s.storeAck id = p.elim (s.dropMsg id) fun n => (s.dropMsg id).bind m.uid m.tid n 0 (toBytes 16 v) := by
  simp only [State.storeAck, hm, hw, hc]
  cases p <;> rfl

/-- A recall makes a holder lose its copy and send the line's release; it is over where the line has been given up (R51, R52). -/
theorem State.recallArrival_eq (hw : m.what = .recall) :
    s.recallArrival id = if s.holds m.cluster m.line then (s.dropMsg id).giveUp m.cluster m.line else s.dropMsg id := by
  simp [State.recallArrival, hm, hw, hc]

/-- A release notice ends the hold; no request waits for it (R51). -/
theorem State.releaseArrival_frame (hw : m.what = .release) (hwait : ∀ x ∈ s.msgs, x.line = m.line → x.arrived = 0) :
    (s.releaseArrival id).mem = s.mem ∧ (s.releaseArrival id).holders = s.holders.filter (· != (m.line, m.cluster)) := by
  have h : s.releaseArrival id = s.released m := by
    simp [State.releaseArrival, hm, hw, hc]
  have hnone : ∀ ms : List Msg, (∀ x ∈ ms, x ∈ s.msgs) → (ms.filter fun x => x.line == m.line && x.arrived != 0) = [] := by
    intro ms hms
    simpa [List.filter_eq_nil_iff] using fun x hx => hwait x (hms x hx)
  rw [h]
  unfold State.released
  dsimp only
  rw [hnone _ fun x hx => (List.mem_filter.mp hx).1]
  exact ⟨rfl, rfl⟩

end

/-- After it gives up a line, a cluster does not hold it. -/
theorem State.giveUp_holds (s : State) (cluster line : Nat) : (s.giveUp cluster line).holds cluster line = false := by
  have h : (s.giveUp cluster line).copy? cluster line = none := by
    rw [State.copy?, List.find?_eq_none]
    intro c hc hcl
    have := (List.mem_filter.mp hc).2
    simp [hcl] at this
  rw [State.holds, h]
  rfl

/-! ## Translations -/

/-- An access of a die's unit finds a pinned translation, or the die's own (R15, R18). -/
theorem State.cached_die (s : State) (die ctx va : Nat) :
    s.cached (.die die) ctx va = (s.pinnedAt die ctx va).or (s.cachedAt (.die die) ctx va) := by
  unfold State.cached
  simp only [tlbDie, tlbLevels, List.findSome?_cons, List.findSome?_nil]
  cases s.pinnedAt die ctx va with
  | some l => rfl
  | none => cases s.cachedAt (.die die) ctx va <;> rfl

/-- A pinned translation is one of the die's TLB. -/
theorem State.pinnedAt_of_cachedAt_none {s : State} {die ctx va : Nat} (h : s.cachedAt (.die die) ctx va = none) :
    s.pinnedAt die ctx va = none := by
  unfold State.cachedAt at h
  unfold State.pinnedAt
  simp only [Option.map_eq_none_iff, List.find?_eq_none] at h ⊢
  intro e he hpin
  exact h e he (by simp_all)

/-- A translation that can be made is the cached one, where there is one. -/
theorem State.xlate_cached {s : State} {u : TlbUnit} {ctx va : Nat} {l : Leaf} (h : s.xlate u ctx va = .ok l) :
    s.cached u ctx va = some l ∨ s.cached u ctx va = none := by
  cases hcd : s.cached u ctx va with
  | none => exact .inr rfl
  | some l' =>
    unfold State.xlate at h
    simp only [hcd] at h
    repeat' (first | contradiction | split at h)
    exact .inl (congrArg some (Except.ok.inj h))

/-- A translation that enters a die's TLB is found there: where none was cached, it is the only one for its page (R15). -/
theorem State.cached_fill {s : State} {die ctx va : Nat} {l : Leaf}
    (h : s.cached (.die die) ctx va = some l ∨ s.cached (.die die) ctx va = none) :
    (s.fill (.die die) ctx va l).cached (.die die) ctx va = some l := by
  let e : TlbEntry := ⟨.die die, ctx, l.big, pageOf l.big va, l.pfn, l.rd, l.wr, l.ex, l.kind, l.pk, l.nl⟩
  let t := s.fill (.die die) ctx va l
  cases hat : s.cachedAt (.die die) ctx va with
  | some l' =>
    have htlb : t.tlb = s.tlb := by simp [t, State.fill, tlbLevels, hat]
    have hsome : s.cached (.die die) ctx va ≠ none := by
      rw [State.cached_die, hat]
      simp
    have hsame : t.cached (.die die) ctx va = s.cached (.die die) ctx va := by
      unfold State.cached State.pinnedAt State.cachedAt
      rw [htlb]
      rfl
    exact hsame.trans (h.resolve_right hsome)
  | none =>
    have htlb : t.tlb = s.tlb ++ [e] := by simp [t, State.fill, tlbLevels, hat, e]
    have hat' : t.cachedAt (.die die) ctx va = some l := by
      unfold State.cachedAt at hat ⊢
      rw [htlb, List.find?_append, Option.map_eq_none_iff.mp hat]
      simp [e, TlbEntry.leaf]
    have hpin' : t.pinnedAt die ctx va = none ∨ t.pinnedAt die ctx va = some l := by
      have hpin := State.pinnedAt_of_cachedAt_none hat
      have hparcels : t.parcels = s.parcels := rfl
      unfold State.pinnedAt at hpin ⊢
      dsimp only at hpin ⊢
      rw [htlb, hparcels, List.find?_append, Option.map_eq_none_iff.mp hpin, Option.none_or, List.find?_singleton]
      split
      · exact .inr rfl
      · exact .inl rfl
    show t.cached (.die die) ctx va = some l
    rw [State.cached_die, hat']
    rcases hpin' with hp | hp <;> rw [hp] <;> rfl

/-- WALK_COMPLETE enters a translation that can be made in the die's TLB. -/
theorem State.walkComplete_cached {s : State} {die ctx page : Nat} {l : Leaf} (hd : die < 4)
    (hx : s.xlate (.die die) ctx (page * 2 ^ 16) = .ok l) :
    (s.walkComplete die ctx page).mem = s.mem ∧ (s.walkComplete die ctx page).cached (.die die) ctx (page * 2 ^ 16) = some l := by
  have h : s.walkComplete die ctx page = s.fill (.die die) ctx (page * 2 ^ 16) l := by
    rw [State.walkComplete, if_neg (Nat.not_le.mpr hd), hx]
  rw [h]
  exact ⟨rfl, State.cached_fill (State.xlate_cached hx)⟩

end Sys2Proof.Machine
end

section
open Sys2Proof Sys2Proof.Machine

/-- Settles O54: a message that comes next reaches the lemma of its kind; requests are performed at once, as no line is held. -/
theorem memorySystemSteps : Obligations.MemorySystemSteps := by
  intro s id m hm hf hx hid hp hl
  obtain ⟨hmem, rfl⟩ := State.msg?_spec hm
  have hk := State.keepsMsg_of_mem hmem
  have hc : s.comes m = true := by rw [State.comes, hf, hx]; rfl
  refine ⟨?write, ?read, ?dram, ?atomic, ?grantReq, ?fill, ?ack, ?grant, ?recallMsg, ?release, ?walk⟩
  case write =>
    intro bs early hw hu hr _
    have h := State.arriveIf_settled (kind := MsgKind.isWrite) hm hc (by rw [hw]; rfl) hl hu.1 hu.2
    obtain ⟨ht, hsent⟩ := State.performMsg_write hu.1 hk hw hr
    refine ⟨_, congrArg Host.Outcome.next h, fun a => ?_, hsent⟩
    rw [ht, Memory.read_write]
  case read =>
    intro k al ov ws hw hu hr
    have h := State.arriveIf_settled (kind := MsgKind.isRead) hm hc (by rw [hw]; rfl) hl hu.1 hu.2
    exact ⟨_, congrArg Host.Outcome.next h, State.performMsg_read hu.1 hk hw hp hr⟩
  case dram =>
    intro k al ov ws hw hs hr
    exact ⟨_, rfl, State.dramReturn_carries hm hc hw hs hp hr⟩
  case atomic =>
    intro a p hw hu hr _
    have h := State.arriveIf_settled (kind := MsgKind.isAtomic) hm hc (by rw [hw]; rfl) hl hu.1 hu.2
    obtain ⟨ht, hsent⟩ := State.performMsg_atomic hu.1 hk hw hp hr
    refine ⟨_, congrArg Host.Outcome.next h, hsent, fun b => ?_⟩
    rw [ht, Memory.read_write, AtomicOp.cells_eq]
    cases a.new (Memory.num s.mem a.addr a.size) <;> rfl
  case grantReq =>
    intro ov hw hu
    have h := State.arriveIf_settled (kind := MsgKind.isGrantReq) hm hc (by rw [hw]; rfl) hl hu.1 hu.2
    exact ⟨_, congrArg Host.Outcome.next h, State.performMsg_grantReq hu.1 hk hw⟩
  case fill =>
    intro k d al ov ws hw
    obtain ⟨ht, hgone, hteams⟩ := State.fillArrival_frame hm hc hw hid
    refine ⟨_, rfl, ht, hgone, ?_⟩
    rintro w rfl q hq hn hparts href
    obtain ⟨r, hr, hrest⟩ := State.bind_last (s := s.dropMsg m.id) w.first (w.bytes m.line k d) hq hn hparts href
    refine ⟨r, ?_, hrest⟩
    unfold State.pending State.thread? State.team? at hr ⊢
    rwa [hteams]
  case ack =>
    intro bs early p v hw
    have h := State.storeAck_ok hm hc hw
    cases p with
    | none => exact ⟨_, congrArg Host.Outcome.next h, rfl, s.dropMsg_ne m.id, fun _ hn => nomatch hn⟩
    | some n =>
      refine ⟨_, congrArg Host.Outcome.next h, rfl, s.dropMsg_ne m.id, ?_⟩
      rintro _ ⟨⟩ q hq hn hparts href
      have := State.bind_last (s := s.dropMsg m.id) 0 (toBytes 16 v) hq hn hparts href
      rwa [ofBytes_toBytes, Nat.pow_zero, Nat.mul_one] at this
  case grant =>
    intro d ov hw
    have h : s.grantArrival m.id = s.takeGrant m d ov := by
      simp [State.grantArrival, hm, hw, hc]
    exact ⟨_, congrArg Host.Outcome.next h, s.takeGrant_holds m d ov⟩
  case recallMsg =>
    intro hw
    have h := State.recallArrival_eq hm hc hw
    cases hh : s.holds m.cluster m.line with
    | false =>
      rw [hh] at h
      exact ⟨_, congrArg Host.Outcome.next h, rfl, hh, s.dropMsg_ne m.id, fun hn => nomatch hn⟩
    | true =>
      rw [hh] at h
      refine ⟨_, congrArg Host.Outcome.next h, rfl, (s.dropMsg m.id).giveUp_holds m.cluster m.line, fun x hx' => ?_, fun _ => ?_⟩
      · rcases ((s.dropMsg m.id).giveUp_drops m.cluster m.line).msgs x hx' with hold | hnew
        · exact s.dropMsg_ne m.id x hold
        · exact fun he => Nat.not_lt.mpr hnew (he ▸ hid)
      · exact ⟨_, List.mem_append_right _ (List.mem_singleton.mpr rfl), rfl, rfl, rfl⟩
  case release =>
    intro hw hwait
    exact ⟨_, rfl, State.releaseArrival_frame hm hc hw hwait⟩
  case walk =>
    intro die ctx page l hd hx'
    exact ⟨_, rfl, State.walkComplete_cached hd hx'⟩
end

section
open Sys2Proof Sys2Proof.Machine

/-- Refutes O60: the counters that TELEMETRY 2 reads are brought up to date for 16 ports, and a port past these is gone from the state
afterwards. In a state that has a seventeenth port, the endpoint performs the command that a host sends by it, but the reply is
left unsent. No state of a package has one (R393); the statement is about every state. -/
theorem not_deviceCommandsAndPower : ¬ Obligations.DeviceCommandsAndPower := by
  intro h
  obtain ⟨-, htelemetry, -⟩ := h.1 { State.reset with ports := List.replicate 17 {} } ⟨0, 0, 16, 0⟩ (toBytes 4 2)
  have hserves : State.serves { State.reset with ports := List.replicate 17 {} } 10 ⟨0, 0, 16, 0⟩ (toBytes 4 2) :=
    ⟨rfl, rfl, rfl, rfl⟩
  obtain ⟨-, -, hcorrected, -⟩ := htelemetry hserves
  obtain ⟨out, t, ht, hanswers, -⟩ := hcorrected rfl
  have hsilent : (State.telemetry { State.reset with ports := List.replicate 17 {} } ⟨0, 0, 16, 0⟩ (toBytes 4 2)).outbox = [] := rfl
  obtain rfl := Host.Outcome.next.inj ht
  rw [State.answers, hsilent] at hanswers
  exact nomatch hanswers
end

section
/-! PROOFS. A team after an update of it, a result that a participant is given, and a participant that starts to wait (R159, R198,
R207). -/

namespace Sys2Proof.Machine

/-- An update of the objects that a test lets in, after which it lets them in still, meets the first of them. -/
theorem find?_updWhere_self {α : Type} {p : α → Bool} {f : α → α} (hf : ∀ a, p a = true → p (f a) = true) (l : List α) :
    (updWhere p f l).find? p = (l.find? p).map f := by
  induction l with
  | nil => rfl
  | cons a t ih =>
    rw [updWhere, List.map_cons, ← updWhere]
    cases ha : p a with
    | true => simp [ha, hf a ha]
    | false => simp [ha, ih]

theorem State.team?_updTeam {s : State} {uid : Nat} {f : Team → Team} (hf : ∀ t, t.uid = uid → (f t).uid = uid) :
    (s.updTeam uid f).team? uid = (s.team? uid).map f :=
  find?_updWhere_self (p := fun t : Team => t.uid == uid) (fun t ht => beq_iff_eq.mpr (hf t (beq_iff_eq.mp ht))) s.teams

theorem State.team?_updThread (s : State) (uid tid : Nat) (f : Thread → Thread) :
    (s.updThread uid tid f).team? uid = (s.team? uid).map fun t => t.updThread tid f :=
  State.team?_updTeam fun _ h => h

theorem State.thread?_eq {s : State} {uid : Nat} {t : Team} (h : s.team? uid = some t) (tid : Nat) :
    s.thread? uid tid = t.thread? tid := by
  rw [State.thread?, h, Option.bind_some]

/-! ## Results that are given -/

/-- A thread with one more result outstanding. -/
def Thread.withPend (p : Pend) (th : Thread) : Thread := { th with pend := th.pend ++ [p] }

/-- A result adds to what the thread has outstanding, unless its operand names no register. -/
theorem Issue.give_eq (x : Issue) (lt : Nat × Thread) (w v : Nat) (s : State) :
    x.give lt w v s = if operandWrites (x.dst lt) w v = [] then s
      else { s.updThread x.team.uid lt.2.tid (Thread.withPend { id := s.seq, writes := operandWrites (x.dst lt) w v }) with
               seq := s.seq + 1 } := rfl

@[simp] theorem Issue.give_mem (x : Issue) (lt : Nat × Thread) (w v : Nat) (s : State) : (x.give lt w v s).mem = s.mem := by
  rw [Issue.give_eq]; split <;> rfl

@[simp] theorem Issue.give_polders (x : Issue) (lt : Nat × Thread) (w v : Nat) (s : State) :
    (x.give lt w v s).polders = s.polders := by
  rw [Issue.give_eq]; split <;> rfl

@[simp] theorem Issue.give_ending (x : Issue) (lt : Nat × Thread) (w v : Nat) (s : State) :
    (x.give lt w v s).ending = s.ending := by
  rw [Issue.give_eq]; split <;> rfl

/-- A thread that is given a result has it outstanding, bound. -/
theorem Issue.give_holdsResult {x : Issue} {lt : Nat × Thread} {s : State} {th : Thread}
    (h : s.thread? x.team.uid lt.2.tid = some th) (w v : Nat) :
    (x.give lt w v s).holdsResult x.team.uid lt.2.tid (x.dst lt) w v := by
  rw [Issue.give_eq]
  split
  next hnil => exact .inl hnil
  next =>
    refine .inr ⟨{ id := s.seq, writes := operandWrites (x.dst lt) w v }, ?_, rfl, rfl⟩
    show _ ∈ (((s.updThread x.team.uid lt.2.tid _).thread? x.team.uid lt.2.tid).map (·.pend)).getD []
    rw [State.thread?_updThread (f := Thread.withPend _) fun _ => rfl, h]
    exact List.mem_append_right _ (List.mem_singleton.mpr rfl)

/-- A result leaves the local memory of its team. -/
theorem Issue.give_loc {x : Issue} {lt : Nat × Thread} {s : State} {t : Team} (h : s.team? x.team.uid = some t) (w v : Nat) :
    ∃ u, (x.give lt w v s).team? x.team.uid = some u ∧ u.loc = t.loc ∧ u.locFill = t.locFill := by
  rw [Issue.give_eq]
  split
  · exact ⟨t, h, rfl, rfl⟩
  · refine ⟨_, (State.team?_updThread s _ _ _).trans (congrArg (Option.map _) h), rfl, rfl⟩

/-! ## Threads that start to wait -/

/-- A thread that waits. -/
def Thread.waiting (b : Blocked) (th : Thread) : Thread := { th with released := false, blocked := some b }

/-- A participant that leaves its wave to wait changes its wave and its thread alone. -/
theorem Issue.block_eq {x : Issue} {s : State} {t : Team} (ht : s.team? x.team.uid = some t) (tid : Nat) (k : Wait) :
    ∃ b, b.wait = k ∧ x.block tid k s = (s.leaveWave x.wave.wid [tid]).updThread x.team.uid tid (Thread.waiting b) := by
  unfold Issue.block
  rw [ht]
  exact ⟨_, rfl, rfl⟩

/-- A participant that leaves its wave to wait waits as it says, and its team's local memory is as before. -/
theorem Issue.block_waits {x : Issue} {s : State} {t : Team} {th : Thread} {tid : Nat} (ht : s.team? x.team.uid = some t)
    (hth : t.thread? tid = some th) (k : Wait) :
    (x.block tid k s).waitsIn x.team.uid tid k ∧ ∃ u, (x.block tid k s).team? x.team.uid = some u ∧ u.loc = t.loc := by
  obtain ⟨b, hb, heq⟩ := Issue.block_eq ht tid k
  have hteam : (s.leaveWave x.wave.wid [tid]).team? x.team.uid = some t := ht
  rw [heq]
  constructor
  · refine ⟨Thread.waiting b th, b, ?_, rfl, hb⟩
    rw [State.thread?_updThread (f := Thread.waiting b) fun _ => rfl, State.thread?_eq hteam, hth, Option.map_some]
  · refine ⟨t.updThread tid (Thread.waiting b), ?_, rfl⟩
    rw [State.team?_updThread, hteam, Option.map_some]

end Sys2Proof.Machine
end
section
/-! PROOFS. How a wave goes on past an instruction leaves memory and the guard slots of every team. -/

namespace Sys2Proof.Machine

/-- The guard slots of a team. -/
def State.guards? (s : State) (uid : Nat) : Option (List GuardSlot) := (s.team? uid).map (·.guards)

/-- Memory and the guard slots of every team are as before. -/
structure State.KeepsGuards (s u : State) : Prop where
  mem : u.mem = s.mem
  guards : ∀ uid, u.guards? uid = s.guards? uid

theorem State.KeepsGuards.trans {s u v : State} (h : s.KeepsGuards u) (h' : u.KeepsGuards v) : s.KeepsGuards v :=
  ⟨h'.mem.trans h.mem, fun uid => (h'.guards uid).trans (h.guards uid)⟩

/-- A team with its number and its guard slots as they were. -/
def Team.SameGuards (t u : Team) : Prop := u.uid = t.uid ∧ u.guards = t.guards

theorem Team.SameGuards.trans {t u v : Team} (h : t.SameGuards u) (h' : u.SameGuards v) : t.SameGuards v :=
  ⟨h'.1.trans h.1, h'.2.trans h.2⟩

theorem State.updTeam_keepsGuards {s : State} {uid : Nat} {f : Team → Team} (hf : ∀ t : Team, t.SameGuards (f t)) :
    s.KeepsGuards (s.updTeam uid f) := by
  refine ⟨rfl, fun k => ?_⟩
  have h : (s.updTeam uid f).team? k = (s.team? k).map fun t => if t.uid == uid then f t else t :=
    find_updWhere (q := fun t : Team => t.uid == k) (fun t => by rw [(hf t).1]) s.teams
  unfold State.guards?
  rw [h]
  cases s.team? k with
  | none => rfl
  | some t =>
    simp only [Option.map_some, Option.some.injEq]
    split
    · exact (hf t).2
    · rfl

theorem State.updThreads_keepsGuards (s : State) (uid : Nat) (tids : List Nat) (f : Thread → Thread) :
    s.KeepsGuards (s.updThreads uid tids f) :=
  State.updTeam_keepsGuards fun _ => ⟨rfl, rfl⟩

theorem State.tick_keepsGuards (s : State) : s.KeepsGuards s.tick := ⟨rfl, fun _ => rfl⟩

/-! ## Results that a marker writes (R206) -/

theorem Team.applyWrite_sameGuards (t : Team) (tid : Nat) (w : RegWrite) : t.SameGuards (t.applyWrite tid w) := by
  unfold Team.applyWrite
  split
  · split <;> exact ⟨rfl, rfl⟩
  all_goals exact ⟨rfl, rfl⟩

theorem Team.applyWrites_sameGuards (tid : Nat) : ∀ (ws : List RegWrite) (t : Team), t.SameGuards (t.applyWrites tid ws)
  | [], _ => ⟨rfl, rfl⟩
  | w :: rest, t => (t.applyWrite_sameGuards tid w).trans (Team.applyWrites_sameGuards tid rest _)

theorem Team.applyAll_sameGuards : ∀ (ws : List (Nat × List RegWrite)) (t : Team), t.SameGuards (t.applyAll ws)
  | [], _ => ⟨rfl, rfl⟩
  | w :: rest, t => (t.applyWrites_sameGuards w.1 w.2).trans (Team.applyAll_sameGuards rest _)

theorem Team.flushAll_sameGuards (pick : Nat → Nat → Nat) (t : Team) (tids : List Nat) :
    t.SameGuards (t.flushAll pick tids) :=
  Team.SameGuards.trans (u := { t with threads := _ }) ⟨rfl, rfl⟩ (Team.applyAll_sameGuards _ _)

theorem State.mark_keepsGuards (s : State) (uid : Nat) (tids wids : List Nat) : s.KeepsGuards (s.mark uid tids wids) := by
  unfold State.mark
  split
  · exact ⟨rfl, fun _ => rfl⟩
  · split
    · exact State.updTeam_keepsGuards fun t => t.flushAll_sameGuards _ tids
    · exact ⟨rfl, fun _ => rfl⟩

/-! ## The wave -/

theorem State.updWave_keepsGuards (s : State) (wid : Nat) (f : Wave → Wave) : s.KeepsGuards (s.updWave wid f) :=
  ⟨rfl, fun _ => rfl⟩

theorem State.addParts_keepsGuards (w : Wave) : ∀ (gs : List (List (Nat × Nat))) (s : State), s.KeepsGuards (s.addParts w gs)
  | [], _ => ⟨rfl, fun _ => rfl⟩
  | _ :: rest, s => by
    have h := State.addParts_keepsGuards w rest
    unfold State.addParts
    exact ⟨(h _).mem, (h _).guards⟩

theorem State.divide_keepsGuards {α : Type} [DecidableEq α] (s : State) (wid : Nat) (key : Nat → α) :
    s.KeepsGuards (s.divide wid key) := by
  unfold State.divide
  split
  · exact ⟨rfl, fun _ => rfl⟩
  · dsimp only
    split
    · exact ⟨rfl, fun _ => rfl⟩
    · exact (s.updWave_keepsGuards wid _).trans (State.addParts_keepsGuards _ _ _)

/-- An instruction's wave goes on: threads, their results and waves change. -/
theorem Issue.advance_keepsGuards (x : Issue) (next : List (Nat × DWord)) (s : State) : s.KeepsGuards (x.advance next s) := by
  have hmark : ∀ (u : State) (tids wids : List Nat), u.KeepsGuards (if x.f.marker then u.mark x.team.uid tids wids else u) := by
    intro u tids wids
    split
    · exact u.mark_keepsGuards _ _ _
    · exact ⟨rfl, fun _ => rfl⟩
  unfold Issue.advance
  split
  · exact ⟨rfl, fun _ => rfl⟩
  · refine State.KeepsGuards.trans ?_ (State.tick_keepsGuards _)
    refine State.KeepsGuards.trans ?_ (State.updWave_keepsGuards _ _ _)
    refine State.KeepsGuards.trans ?_ (hmark _ _ _)
    exact (s.updThreads_keepsGuards _ _ _).trans (State.divide_keepsGuards _ _ _)

end Sys2Proof.Machine
end

section
/-! PROOFS. The guard writes of one instruction: of those to a slot, the one of the lowest place stands (R99, R102, R304). -/

namespace Sys2Proof.Machine

/-! ## The first in an order -/

/-- A list is in the order of a key. -/
def Ordered {α : Type} (key : α → Nat) (l : List α) : Prop := l.Pairwise fun a b => key a ≤ key b

theorem mem_sortBy_put {α : Type} (key : α → Nat) (x y : α) : ∀ l : List α, y ∈ sortBy.put key x l ↔ y = x ∨ y ∈ l
  | [] => by simp [sortBy.put]
  | z :: u => by
    unfold sortBy.put
    split
    · simp only [List.mem_cons, mem_sortBy_put key x y u]
      exact or_left_comm
    · exact List.mem_cons

theorem ordered_sortBy_put {α : Type} (key : α → Nat) (x : α) : ∀ l : List α, Ordered key l → Ordered key (sortBy.put key x l)
  | [], _ => List.pairwise_singleton _ _
  | y :: u, h => by
    obtain ⟨hy, hu⟩ := List.pairwise_cons.mp h
    unfold sortBy.put
    split
    next hlt =>
      refine List.pairwise_cons.mpr ⟨fun z hz => ?_, ordered_sortBy_put key x u hu⟩
      rcases (mem_sortBy_put key x z u).mp hz with rfl | hz
      · exact Nat.le_of_lt hlt
      · exact hy z hz
    next hge =>
      refine List.pairwise_cons.mpr ⟨fun z hz => ?_, h⟩
      rcases List.mem_cons.mp hz with rfl | hz
      · exact Nat.le_of_not_lt hge
      · exact Nat.le_trans (Nat.le_of_not_lt hge) (hy z hz)

theorem ordered_sortBy {α : Type} (key : α → Nat) : ∀ l : List α, Ordered key (sortBy key l)
  | [] => List.Pairwise.nil
  | x :: t => ordered_sortBy_put key x _ (ordered_sortBy key t)

/-- Of an element and the first such, the lower; the element, where they are equal. -/
def lowerOf {α : Type} (key : α → Nat) (x : α) (o : Option α) : α := o.elim x fun y => if key y < key x then y else x

theorem minBy_cons {α : Type} (key : α → Nat) (x : α) (l : List α) : minBy key (x :: l) = some (lowerOf key x (minBy key l)) := by
  rw [minBy]
  cases minBy key l with
  | none => rfl
  | some y => exact (apply_ite some (key y < key x) y x).symm

theorem find?_sortBy_put {α : Type} {key : α → Nat} {p : α → Bool} {x : α} : ∀ {l : List α}, Ordered key l →
    (sortBy.put key x l).find? p = if p x then some (lowerOf key x (l.find? p)) else l.find? p
  | [], _ => by cases h : p x <;> simp [sortBy.put, h, lowerOf]
  | y :: u, h => by
    obtain ⟨hy, hu⟩ := List.pairwise_cons.mp h
    unfold sortBy.put
    split
    next hlt =>
      rw [List.find?_cons, List.find?_cons, find?_sortBy_put hu]
      cases p y with
      | true => simp [lowerOf, hlt]
      | false => rfl
    next hge =>
      rw [List.find?_cons]
      cases p x with
      | false => rfl
      | true =>
        simp only [if_true, Option.some.injEq]
        cases hf : (y :: u).find? p with
        | none => rfl
        | some z =>
          have hz : key x ≤ key z := by
            rcases List.mem_cons.mp (List.mem_of_find?_eq_some hf) with rfl | hz
            · exact Nat.le_of_not_lt hge
            · exact Nat.le_trans (Nat.le_of_not_lt hge) (hy z hz)
          simp [lowerOf, Nat.not_lt.mpr hz]

/-- The first in order that a test lets in is the least of those that it lets in. -/
theorem find?_sortBy {α : Type} (key : α → Nat) (p : α → Bool) : ∀ l : List α, (sortBy key l).find? p = minBy key (l.filter p)
  | [] => rfl
  | x :: t => by
    rw [sortBy, find?_sortBy_put (ordered_sortBy key t), find?_sortBy key p t, List.filter_cons]
    split
    · exact (minBy_cons key x _).symm
    · rfl

/-! ## Guard writes -/

/-- A write of a place below k has been to a guard slot of a team in this cycle. -/
def State.guardTaken (s : State) (uid n k : Nat) : Bool :=
  s.guardWrites.any fun w => w.1 == uid && w.2.1 == n && decide (w.2.2 < k)

/-- A team with a guard slot set. -/
def Team.setGuard (n : Nat) (g : GuardSlot) (t : Team) : Team := { t with guards := t.guards.set n g }

theorem Issue.guardOne_eq (x : Issue) (val : Nat × Thread → GuardSlot) (s : State) (lt : Nat × Thread) :
    x.guardOne val s lt = if s.guardTaken x.team.uid (x.a lt 32) (guardRank lt) then s
      else { s.updTeam x.team.uid (Team.setGuard (x.a lt 32) (val lt)) with
             guardWrites := (x.team.uid, x.a lt 32, guardRank lt) :: s.guardWrites } := rfl

/-- The participant among some that a guard slot takes its value from. -/
def Issue.guardWriter (x : Issue) (s : State) (l : List (Nat × Thread)) (n : Nat) : Option (Nat × Thread) :=
  minBy guardRank (l.filter fun lt => x.a lt 32 == n && !s.guardTaken x.team.uid n (guardRank lt))

theorem Issue.guardWriter_cons (x : Issue) (s : State) (lt : Nat × Thread) (l : List (Nat × Thread)) (n : Nat) :
    x.guardWriter s (lt :: l) n = if x.a lt 32 = n ∧ s.guardTaken x.team.uid n (guardRank lt) = false
      then some (lowerOf guardRank lt (x.guardWriter s l n)) else x.guardWriter s l n := by
  unfold Issue.guardWriter
  rw [List.filter_cons]
  by_cases h : x.a lt 32 = n ∧ s.guardTaken x.team.uid n (guardRank lt) = false
  · rw [if_pos h, if_pos (by simp [h.1, h.2]), minBy_cons]
  · rw [if_neg h, if_neg (by simpa using h)]

/-- What some participants of an instruction, the last one first, have written to the guard slots of their team. -/
structure Issue.GuardsWritten (x : Issue) (val : Nat × Thread → GuardSlot) (s : State) (gs : List GuardSlot)
    (l : List (Nat × Thread)) (u : State) : Prop where
  mem : u.mem = s.mem
  slots : ∃ hs, u.guards? x.team.uid = some hs ∧ hs.length = gs.length ∧
    ∀ n, hs[n]? = (x.guardWriter s l n).elim gs[n]? fun lt => if n < gs.length then some (val lt) else none
  taken : ∀ n k, u.guardTaken x.team.uid n k
    = (s.guardTaken x.team.uid n k || (x.guardWriter s l n).any fun lt => decide (guardRank lt < k))

/-- No participant has written yet. -/
theorem Issue.GuardsWritten.nil {x : Issue} {val : Nat × Thread → GuardSlot} {s : State} {gs : List GuardSlot}
    (h : s.guards? x.team.uid = some gs) : x.GuardsWritten val s gs [] s :=
  ⟨rfl, ⟨gs, h, rfl, fun _ => rfl⟩, fun _ _ => (Bool.or_false _).symm⟩

section
variable {x : Issue} {val : Nat × Thread → GuardSlot} {s u : State} {gs : List GuardSlot} {l : List (Nat × Thread)}
  (h : x.GuardsWritten val s gs l u) (lt : Nat × Thread)
include h

/-- A participant writes nothing where a write of a lower place has been: the slots have the same writers with it as without it. -/
theorem Issue.GuardsWritten.skip (ht : u.guardTaken x.team.uid (x.a lt 32) (guardRank lt) = true) :
    x.GuardsWritten val s gs (lt :: l) u := by
  have hw : ∀ n, x.guardWriter s (lt :: l) n = x.guardWriter s l n := by
    intro n
    rw [Issue.guardWriter_cons]
    split
    next hn =>
      obtain ⟨rfl, hfree⟩ := hn
      rw [h.taken, hfree, Bool.false_or] at ht
      cases hy : x.guardWriter s l (x.a lt 32) with
      | none => rw [hy] at ht; cases ht
      | some y =>
        have hlt : guardRank y < guardRank lt := by simpa [hy] using ht
        simp [lowerOf, hlt]
    next => rfl
  obtain ⟨hs, hgs, hlen, hn⟩ := h.slots
  exact ⟨h.mem, ⟨hs, hgs, hlen, fun n => by rw [hw, hn]⟩, fun n k => by rw [hw, h.taken]⟩

/-- A participant that no write of a lower place has been before writes its slot, which takes its value from it so far. -/
theorem Issue.GuardsWritten.write (ht : u.guardTaken x.team.uid (x.a lt 32) (guardRank lt) = false) {v : State} (hmem : v.mem = u.mem)
    (hguards : v.guards? x.team.uid = (u.guards? x.team.uid).map fun g => g.set (x.a lt 32) (val lt))
    (hwrites : v.guardWrites = (x.team.uid, x.a lt 32, guardRank lt) :: u.guardWrites) :
    x.GuardsWritten val s gs (lt :: l) v := by
  rw [h.taken, Bool.or_eq_false_iff] at ht
  obtain ⟨hfree, hlow⟩ := ht
  have hself : x.guardWriter s (lt :: l) (x.a lt 32) = some lt := by
    rw [Issue.guardWriter_cons, if_pos ⟨rfl, hfree⟩]
    cases hy : x.guardWriter s l (x.a lt 32) with
    | none => rfl
    | some y =>
      have hge : ¬guardRank y < guardRank lt := by simpa [hy] using hlow
      simp [lowerOf, hge]
  have hother : ∀ n, n ≠ x.a lt 32 → x.guardWriter s (lt :: l) n = x.guardWriter s l n := by
    intro n hn
    rw [Issue.guardWriter_cons, if_neg fun hc => hn hc.1.symm]
  obtain ⟨hs, hgs, hlen, hslot⟩ := h.slots
  refine ⟨hmem.trans h.mem, ⟨hs.set (x.a lt 32) (val lt), by rw [hguards, hgs]; rfl, List.length_set.trans hlen, fun n => ?_⟩,
    fun n k => ?_⟩
  · by_cases hn : n = x.a lt 32
    · subst hn
      rw [hself, List.getElem?_set, if_pos rfl, hlen]
      rfl
    · rw [hother n hn, List.getElem?_set_ne (Ne.symm hn), hslot]
  · have htaken : v.guardTaken x.team.uid n k
        = ((decide (x.a lt 32 = n) && decide (guardRank lt < k)) || u.guardTaken x.team.uid n k) := by
      simp only [State.guardTaken, hwrites, List.any_cons, beq_self_eq_true, Bool.true_and]
      rfl
    rw [htaken, h.taken]
    by_cases hn : n = x.a lt 32
    · subst hn
      have hlater : (x.guardWriter s l (x.a lt 32)).any (fun y => decide (guardRank y < k)) = true → guardRank lt < k := by
        cases hy : x.guardWriter s l (x.a lt 32) with
        | none => exact nofun
        | some y =>
          have hge : ¬guardRank y < guardRank lt := by simpa [hy] using hlow
          exact fun hk => Nat.lt_of_le_of_lt (Nat.le_of_not_lt hge) (of_decide_eq_true hk)
      rw [hself, Bool.eq_iff_iff]
      simp only [decide_true, Bool.true_and, Bool.or_eq_true, Option.any_some, decide_eq_true_eq]
      constructor
      · rintro (hk | hk | hk)
        · exact .inr hk
        · exact .inl hk
        · exact .inr (hlater hk)
      · rintro (hk | hk)
        · exact .inr (.inl hk)
        · exact .inl hk
    · rw [hother n hn, decide_eq_false (Ne.symm hn)]
      simp

end

/-- One participant's guard write. -/
theorem Issue.GuardsWritten.cons {x : Issue} {val : Nat × Thread → GuardSlot} {s u : State} {gs : List GuardSlot}
    {l : List (Nat × Thread)} (h : x.GuardsWritten val s gs l u) (lt : Nat × Thread) :
    x.GuardsWritten val s gs (lt :: l) (x.guardOne val u lt) := by
  rw [Issue.guardOne_eq]
  split
  next ht => exact h.skip lt ht
  next ht =>
    refine h.write lt (Bool.eq_false_iff.mpr ht) rfl ?_ rfl
    show ((u.updTeam _ _).team? _).map _ = ((u.team? _).map _).map _
    rw [State.team?_updTeam (f := Team.setGuard _ _) fun _ ht => ht, Option.map_map, Option.map_map]
    rfl

/-- The guard writes of all participants. -/
theorem Issue.guardsWritten {x : Issue} {val : Nat × Thread → GuardSlot} {s : State} {gs : List GuardSlot}
    (h : s.guards? x.team.uid = some gs) (l : List (Nat × Thread)) :
    x.GuardsWritten val s gs l (l.reverse.foldl (x.guardOne val) s) := by
  rw [List.foldl_reverse]
  induction l with
  | nil => exact .nil h
  | cons lt rest ih => exact ih.cons lt

/-- Which slots a guard instruction writes, with what, where each participant names a slot of the team. -/
theorem runWave_guardBody_sets {s : State} {op : Nat} {f : Fields} {x : Issue} (h : s.Runs op f x)
    (hr : ∀ lt ∈ x.parts, x.a lt 32 < x.team.guards.length) (val : Issue → Nat × Thread → GuardSlot) :
    ∃ t tm, runWave op f (unlessRaised Cause.regRange guardIndexErr (guardBody val)) s = .next t ∧
      t.team? x.team.uid = some tm ∧ t.mem = s.mem ∧ tm.guards.length = x.team.guards.length ∧
      ∀ n, tm.guards[n]? = match (sortBy guardRank x.parts).find? (fun lt =>
          x.a lt 32 == n && !s.guardTaken x.team.uid n (guardRank lt)) with
        | some lt => if n < x.team.guards.length then some (val x lt) else none
        | none => x.team.guards[n]? := by
  have hok : ∀ lt ∈ x.parts, guardIndexErr x lt = none := fun lt hl => if_neg (Nat.not_le.mpr (hr lt hl))
  have hgs : s.guards? x.team.uid = some x.team.guards := by rw [State.guards?, h.team, Option.map_some]
  have hw := Issue.guardsWritten (val := val x) hgs x.parts
  have hk := x.advance_keepsGuards [] (x.parts.reverse.foldl (x.guardOne (val x)) s)
  obtain ⟨hs, hhs, hlen, hslot⟩ := hw.slots
  obtain ⟨tm, htm, rfl⟩ := Option.map_eq_some_iff.mp ((hk.guards x.team.uid).trans hhs)
  refine ⟨_, tm, ?_, htm, hk.mem.trans hw.mem, hlen, fun n => ?_⟩
  · rw [runWave_runs h, unlessRaised_ok hok]
    rfl
  · rw [hslot, find?_sortBy, Issue.guardWriter]
    cases minBy guardRank _ <;> rfl

/-- A participant that names a slot which the team has not traps (R99). -/
theorem runWave_guardBody_traps {s : State} {op : Nat} {f : Fields} {x : Issue} (h : s.Runs op f x)
    (hr : ¬∀ lt ∈ x.parts, x.a lt 32 < x.team.guards.length) (val : Issue → Nat × Thread → GuardSlot) :
    runWave op f (unlessRaised Cause.regRange guardIndexErr (guardBody val)) s
      = .next (s.trapWave x.wave.wid x.pc 0x03 (x.parts.filterMap fun lt =>
        if x.team.guards.length ≤ x.a lt 32 then some (lt.2.tid, 2 ^ 62 + x.a lt 32 % 512) else none)) := by
  obtain ⟨lt, hl, hn⟩ : ∃ lt ∈ x.parts, x.team.guards.length ≤ x.a lt 32 := by simpa using hr
  have herr : ∃ lt ∈ x.parts, guardIndexErr x lt ≠ none := ⟨lt, hl, by simp [guardIndexErr, hn]⟩
  have hraised : x.raised (guardIndexErr x) = x.parts.filterMap fun lt =>
      if x.team.guards.length ≤ x.a lt 32 then some (lt.2.tid, 2 ^ 62 + x.a lt 32 % 512) else none :=
    congrArg (fun g => x.parts.filterMap g) (funext fun lt => apply_ite (Option.map fun i => (lt.2.tid, i)) _ _ _)
  rw [runWave_runs h, unlessRaised_trap herr, Issue.goOn_trap, hraised]
  rfl

end Sys2Proof.Machine
end

section
open Sys2Proof Sys2Proof.Machine

/-- Settles O46: guard writes are folded from the last participant to the first, and of those to a slot the lowest stands; EMBQ's word
is the model's, where the bound on the number is tested before the entry is looked for. -/
theorem guardsAndEmbargoQuery : Obligations.GuardsAndEmbargoQuery := by
  intro s f x
  refine ⟨fun h hr => runWave_guardBody_sets h hr _, fun h hr => runWave_guardBody_sets h hr _,
    fun h hr => runWave_guardBody_traps h hr _, fun h hr => runWave_guardBody_traps h hr _, fun h => ?_⟩
  refine (computes_runs h).trans (congrArg (fun val => Host.Outcome.next (x.gives 64 val s)) (funext fun lt => ?_))
  simp only [State.embq, h.s]
  cases s.embargoes.find? fun e => e.cluster == x.team.pkCluster && e.entry == x.a lt 32 with
  | none => exact ite_self 0
  | some e =>
    dsimp only
    by_cases hn : 63 < x.a lt 32
    · rw [if_pos hn, if_pos (.inl hn)]
    · simp only [hn, if_false, false_or]
end
section
/-! PROOFS. Slot rings: what a byte of local memory reads as after a write, what a slot instruction does to its tag, and what its
participants are given (R107 to R109, R303). -/

namespace Sys2Proof.Machine

/-! ## Local memory -/

theorem iota_eq_range' (n : Nat) : ∀ lo, iota lo n = List.range' lo n := by
  induction n with
  | zero => exact fun _ => rfl
  | succ n ih => exact fun lo => by rw [iota, ih, List.range'_succ]

/-- A byte is found where it was put, and every other as before. -/
theorem find?_locPut (a : Nat) (b : Byte) (k : Nat) : ∀ l : List Host.Cell,
    (locPut l a b).find? (fun c => c.1 == k) = if a = k then some (a, b) else l.find? fun c => c.1 == k
  | [] => by
    by_cases h : a = k <;> simp [locPut, h]
  | (i, c) :: rest => by
    have ih := find?_locPut a b k rest
    unfold locPut
    split
    · by_cases h : a = k <;> simp [h]
    · split
      next heq =>
        subst heq
        by_cases h : a = k <;> simp [h]
      next hne =>
        rw [List.find?_cons, ih, List.find?_cons]
        by_cases h : a = k
        · have hik : (i == k) = false := beq_eq_false_iff_ne.mpr fun hi => hne (h.trans hi.symm)
          simp only [hik, h, if_true]
        · simp only [h, if_false]

/-- A byte of local memory read after a write: the byte written last there, or what was there. -/
theorem Team.locByte_locWrite (a : Nat) : ∀ (cells : List Host.Cell) (t : Team),
    (t.locWrite cells).locByte a = (lastWrite cells a).getD (t.locByte a)
  | [], _ => rfl
  | (k, b) :: rest, t => by
    have ih := Team.locByte_locWrite a rest (t.locWrite [(k, b)])
    have hone : (t.locWrite [(k, b)]).locByte a = if k = a then b else t.locByte a := by
      have := find?_locPut k b a t.loc
      unfold Team.locByte Team.locWrite
      simp only [List.foldl_cons, List.foldl_nil, this]
      by_cases hk : k = a <;> simp only [hk, if_true, if_false]
    refine ih.trans ?_
    rw [hone, lastWrite]
    cases lastWrite rest a with
    | some _ => rfl
    | none => split <;> rfl

/-- The bytes at an address are written at it and after it. -/
theorem lastWrite_cellsAt (b : Nat) : ∀ (l : List Byte) (a : Nat), lastWrite (cellsAt a l) b = if a ≤ b then l[b - a]? else none
  | [], _ => by simp [cellsAt, lastWrite]
  | x :: t, a => by
    rw [cellsAt, lastWrite, lastWrite_cellsAt b t (a + 1)]
    rcases Nat.lt_trichotomy a b with h | rfl | h
    · have hd : b - a = (b - (a + 1)) + 1 := by omega
      rw [if_pos (Nat.succ_le_of_lt h), if_pos (Nat.le_of_lt h), hd, List.getElem?_cons_succ, if_neg (Nat.ne_of_lt h)]
      cases t[b - (a + 1)]? <;> rfl
    · rw [if_neg (Nat.not_succ_le_self a), if_pos rfl, if_pos (Nat.le_refl a), Nat.sub_self, List.getElem?_cons_zero]
    · rw [if_neg (by omega), if_neg (by omega), if_neg (by omega)]

theorem length_toBytes (n : Nat) : ∀ x, (toBytes n x).length = n := by
  induction n with
  | zero => exact fun _ => rfl
  | succ n ih => exact fun x => congrArg (· + 1) (ih _)

/-- A word of local memory that is written is read back. -/
theorem Team.locWord_locWrite (t : Team) (a v : Nat) : (t.locWrite (cellsAt a (toBytes 4 v))).locWord a = v % 2 ^ 32 := by
  have hbytes : (t.locWrite (cellsAt a (toBytes 4 v))).locBytes a 4 = toBytes 4 v := by
    refine List.ext_getElem? fun i => ?_
    rw [Team.locBytes, iota_eq_range', List.getElem?_map]
    by_cases hi : i < 4
    · have hlen : i < (toBytes 4 v).length := by rwa [length_toBytes]
      rw [List.getElem?_range' hi, Option.map_some, Team.locByte_locWrite, lastWrite_cellsAt, if_pos (by omega),
        show a + 1 * i - a = i by omega, List.getElem?_eq_getElem hlen, Option.getD_some]
    · rw [List.getElem?_eq_none (by simpa using hi), List.getElem?_eq_none (by rw [length_toBytes]; omega), Option.map_none]
  exact (congrArg ofBytes hbytes).trans (ofBytes_toBytes 4 v)

/-- A write of bytes leaves the others. -/
theorem Team.locByte_locWrite_outside (t : Team) {a b : Nat} (l : List Byte) (h : b < a ∨ a + l.length ≤ b) :
    (t.locWrite (cellsAt a l)).locByte b = t.locByte b := by
  rw [Team.locByte_locWrite, lastWrite_cellsAt]
  split
  · rw [List.getElem?_eq_none (by omega)]; rfl
  · rfl

/-- The byte that is written last somewhere is one that is written there. -/
theorem mem_of_lastWrite {a : Nat} {b : Byte} : ∀ {ws : List Host.Cell}, lastWrite ws a = some b → (a, b) ∈ ws
  | (k, c) :: rest, h => by
    rw [lastWrite] at h
    cases hr : lastWrite rest a with
    | some x =>
      rw [hr] at h
      obtain rfl := Option.some.inj h
      exact List.mem_cons_of_mem _ (mem_of_lastWrite hr)
    | none =>
      rw [hr] at h
      dsimp only at h
      split at h
      next hk =>
        obtain rfl := Option.some.inj h
        exact hk ▸ List.mem_cons_self
      next => cases h

/-- Where a byte is written, one is written last. -/
theorem lastWrite_ne_none {a : Nat} : ∀ {ws : List Host.Cell}, a ∈ ws.map (·.1) → lastWrite ws a ≠ none
  | (k, c) :: rest, h => by
    rw [lastWrite]
    cases hr : lastWrite rest a with
    | some x => exact Option.some_ne_none x
    | none =>
      have hk : a = k := (List.mem_cons.mp h).resolve_right fun hm => lastWrite_ne_none hm hr
      rw [if_pos hk.symm]
      exact Option.some_ne_none c

/-- A byte to which only zero is written reads as zero. -/
theorem Team.locByte_locWrite_zero (t : Team) {a : Nat} {ws : List Host.Cell} (hz : ∀ c ∈ ws, c.2 = 0) (ha : a ∈ ws.map (·.1)) :
    (t.locWrite ws).locByte a = 0 := by
  obtain ⟨b, hb⟩ := Option.ne_none_iff_exists'.mp (lastWrite_ne_none ha)
  rw [Team.locByte_locWrite, hb]
  exact hz _ (mem_of_lastWrite hb)

/-- A word whose bytes are zero is zero. -/
theorem Team.locWord_zero {t : Team} {a : Nat} (h : ∀ b, a ≤ b → b < a + 4 → t.locByte b = 0) : t.locWord a = 0 := by
  have hl : t.locBytes a 4 = [0, 0, 0, 0] := by
    simp only [Team.locBytes, iota, List.map_cons, List.map_nil]
    rw [h a, h (a + 1), h (a + 1 + 1), h (a + 1 + 1 + 1)] <;> omega
  rw [Team.locWord, hl]
  rfl

theorem mem_cellsAt_zero {a n : Nat} {c : Host.Cell} (h : c ∈ cellsAt a (toBytes n 0)) : c.2 = 0 := by
  rw [cellsAt_toBytes] at h
  obtain ⟨k, -, rfl⟩ := List.mem_map.mp h
  simp

theorem mem_keys_cellsAt {a n v b : Nat} (h : a ≤ b) (hb : b < a + n) : b ∈ (cellsAt a (toBytes n v)).map (·.1) := by
  rw [cellsAt_toBytes, List.map_map]
  exact List.mem_map.mpr ⟨b - a, List.mem_range.mpr (by omega), by simp [h]⟩

/-! ## A slot instruction and its tag (R108) -/

theorem SlotOp.next_res (n slotBytes parity tag : Nat) : (SlotOp.res n).next slotBytes parity tag
    = if n = 0 ∨ slotBytes < n then some (.inl 0x12)
      else if tag % 4 = 0 ∧ tag / 4 % 2 = parity then some (.inr (n * 256 + parity * 4 + 1)) else none := rfl

theorem tagWord_zero (lap state : Nat) : tagWord 0 lap state = lap * 4 + state := by
  rw [tagWord, Nat.zero_mul, Nat.zero_add]

theorem SlotOp.next_take (slotBytes parity tag : Nat) : SlotOp.take.next slotBytes parity tag
    = if tag % 4 = 2 ∧ tag / 4 % 2 = parity then some (.inr (parity * 4 + 3)) else none := by
  simp only [SlotOp.next, tagWord_zero, tagState, tagLap]

theorem SlotOp.next_done (slotBytes parity tag : Nat) : SlotOp.done.next slotBytes parity tag
    = if tag % 4 = 3 ∧ tag / 4 % 2 = parity then some (.inr ((1 - parity) * 4)) else some (.inl 0x11) := by
  simp only [SlotOp.next, tagWord_zero, tagState, tagLap, Nat.add_zero]

theorem SlotOp.next_fill (slotBytes parity tag : Nat) : SlotOp.fill.next slotBytes parity tag
    = if tag % 4 = 1 ∧ tag / 4 % 2 = parity then some (.inr (parity * 4 + 2)) else some (.inl 0x11) := by
  simp only [SlotOp.next, tagWord_zero, tagState, tagLap]

section
variable {t : Team} {handle : Nat} {o : SlotOp} {r : Ring} (hr : t.ring? (handle % 2 ^ 32) = some r)
include hr

/-- A tag that a slot instruction writes is its result; nothing else of local memory changes. -/
theorem Team.slotOp_tag {tag : Nat}
    (hn : o.next r.slotBytes (r.parity (handle / 2 ^ 32)) (t.locWord (r.tagAt (handle / 2 ^ 32))) = some (.inr tag)) :
    ∃ u, t.slotOp handle o = some (u, tag) ∧ u.locWord (r.tagAt (handle / 2 ^ 32)) = tag % 2 ^ 32 ∧
      ∀ a, a < r.tagAt (handle / 2 ^ 32) ∨ r.tagAt (handle / 2 ^ 32) + 4 ≤ a → u.locByte a = t.locByte a := by
  refine ⟨t.locWrite (cellsAt (r.tagAt (handle / 2 ^ 32)) (toBytes 4 tag)), ?_, t.locWord_locWrite _ _,
    fun a ha => t.locByte_locWrite_outside _ (by rwa [length_toBytes])⟩
  simp only [Team.slotOp, hr, hn]

/-- A status changes nothing. -/
theorem Team.slotOp_status {e : Nat}
    (hn : o.next r.slotBytes (r.parity (handle / 2 ^ 32)) (t.locWord (r.tagAt (handle / 2 ^ 32))) = some (.inl e)) :
    t.slotOp handle o = some (t, statusWord e 0) := by
  simp only [Team.slotOp, hr, hn]

theorem Team.slotOp_waits
    (hn : o.next r.slotBytes (r.parity (handle / 2 ^ 32)) (t.locWord (r.tagAt (handle / 2 ^ 32))) = none) :
    t.slotOp handle o = none := by
  simp only [Team.slotOp, hr, hn]

end

theorem Team.slotOp_badRing {t : Team} {handle : Nat} (hr : t.ring? (handle % 2 ^ 32) = none) (o : SlotOp) :
    t.slotOp handle o = some (t, statusWord 0x10 0) := by
  simp only [Team.slotOp, hr]

/-- A slot instruction leaves its team's number and threads. -/
theorem Team.slotOp_frame {t u : Team} {handle v : Nat} {o : SlotOp} (h : t.slotOp handle o = some (u, v)) :
    u.uid = t.uid ∧ u.threads = t.threads := by
  unfold Team.slotOp at h
  split at h
  · obtain ⟨rfl, -⟩ := Prod.mk.inj (Option.some.inj h)
    exact ⟨rfl, rfl⟩
  · dsimp only at h
    split at h
    · cases h
    all_goals
      obtain ⟨rfl, -⟩ := Prod.mk.inj (Option.some.inj h)
      exact ⟨rfl, rfl⟩

/-! ## What participants are given -/

section
variable {x : Issue} {u : State} {lt : Nat × Thread} {tm : Team} (ht : u.team? x.team.uid = some tm)
include ht

/-- A participant that finds its slot in another state waits. -/
theorem Issue.slotOne_waits {th : Thread} (hth : tm.thread? lt.2.tid = some th) {o : Nat × Thread → SlotOp}
    (k : Nat × Thread → Wait) (hn : tm.slotOp (x.a lt 64) (o lt) = none) :
    (x.slotOne o k u lt).waitsIn x.team.uid lt.2.tid (k lt) ∧
      ∀ t, (x.slotOne o k u lt).team? x.team.uid = some t → t.loc = tm.loc := by
  have h : x.slotOne o k u lt = x.block lt.2.tid (k lt) u := by
    simp only [Issue.slotOne, ht, hn]
  obtain ⟨hw, v, hv, hloc⟩ := Issue.block_waits ht hth (k lt)
  rw [h]
  exact ⟨hw, fun t htv => Option.some.inj (hv.symm.trans htv) ▸ hloc⟩

/-- A participant that finds its slot as it has to be is given its result, and the ring's tag is as the result says. -/
theorem Issue.slotOne_gives {th : Thread} (hth : tm.thread? lt.2.tid = some th) {o : Nat × Thread → SlotOp}
    (k : Nat × Thread → Wait) {tm' : Team} {v : Nat} (hs : tm.slotOp (x.a lt 64) (o lt) = some (tm', v)) :
    (x.slotOne o k u lt).holdsResult x.team.uid lt.2.tid (x.dst lt) 32 v ∧
      ∃ t, (x.slotOne o k u lt).team? x.team.uid = some t ∧ t.loc = tm'.loc := by
  have h : x.slotOne o k u lt = x.give lt 32 v (u.updTeam x.team.uid fun _ => tm') := by
    simp only [Issue.slotOne, ht, hs]
  obtain ⟨huid, hthreads⟩ := Team.slotOp_frame hs
  have hteam : (u.updTeam x.team.uid fun _ => tm').team? x.team.uid = some tm' := by
    rw [State.team?_updTeam fun _ _ => huid.trans (team_uid ht), ht, Option.map_some]
  have hthread : (u.updTeam x.team.uid fun _ => tm').thread? x.team.uid lt.2.tid = some th := by
    rw [State.thread?_eq hteam, Team.thread?, hthreads]
    exact hth
  obtain ⟨t, htv, hloc, -⟩ := Issue.give_loc hteam (lt := lt) 32 v
  rw [h]
  exact ⟨Issue.give_holdsResult hthread 32 v, t, htv, hloc⟩

/-- SLOTINIT makes every tag of a ring, and RESV, zero. -/
theorem Issue.slotinitOne_zero {r : Ring} (hr : tm.ring? (x.a lt 64 % 2 ^ 32) = some r) :
    ∃ t, (x.slotinitOne u lt).team? x.team.uid = some t ∧ (∀ k, k < r.nslots → t.locWord (r.tags + 4 * k) = 0) ∧
      t.locWord (x.a lt 64 % 2 ^ 32 + 16) = 0 := by
  let cells := cellsAt r.tags (toBytes (4 * r.nslots) 0) ++ cellsAt (x.a lt 64 % 2 ^ 32 + 16) (toBytes 4 0)
  have h : x.slotinitOne u lt = x.give lt 32 0 (u.updTeam x.team.uid fun t => t.locWrite cells) := by
    simp only [Issue.slotinitOne, ht, Option.bind_some, hr]
    rfl
  have hteam : (u.updTeam x.team.uid fun t => t.locWrite cells).team? x.team.uid = some (tm.locWrite cells) := by
    rw [State.team?_updTeam (f := fun t => t.locWrite cells) fun _ h => h, ht, Option.map_some]
  obtain ⟨t, htv, hloc, hfill⟩ := Issue.give_loc hteam (lt := lt) 32 0
  have hzero : ∀ b ∈ cells.map (·.1), t.locByte b = 0 := by
    intro b hb
    have hbyte : t.locByte b = (tm.locWrite cells).locByte b := by simp only [Team.locByte, hloc, hfill]
    rw [hbyte]
    refine tm.locByte_locWrite_zero (fun c hc => ?_) hb
    rcases List.mem_append.mp hc with hc | hc <;> exact mem_cellsAt_zero hc
  rw [h]
  refine ⟨t, htv, fun k hk => Team.locWord_zero fun b hb hb' => hzero b ?_, Team.locWord_zero fun b hb hb' => hzero b ?_⟩
  · rw [List.map_append]
    exact List.mem_append_left _ (mem_keys_cellsAt (by omega) (by omega))
  · rw [List.map_append]
    exact List.mem_append_right _ (mem_keys_cellsAt hb hb')

end

/-- A slot instruction whose release has taken effect. -/
theorem runWave_slotBody_released {s : State} {op : Nat} {f : Fields} {x : Issue} (h : s.Runs op f x) (hrel : x.released .tm)
    (o : Issue → Nat × Thread → SlotOp) (k : Issue → Nat × Thread → Wait) :
    runWave op f (afterRelease .tm (slotBody o k)) s = .next (x.advance [] (x.parts.foldl (x.slotOne (o x) (k x)) s.tick)) := by
  rw [runWave_runs h, afterRelease_ok h.s hrel]
  rfl

end Sys2Proof.Machine
end

section
open Sys2Proof Sys2Proof.Machine

/-- Settles O45: each instruction's table row, by the state and the lap of the tag. -/
theorem slotInstructions : Obligations.SlotInstructions := by
  refine ⟨fun s f x => ⟨plain_runs, runWave_runs, runWave_runs, fun h hrel => runWave_slotBody_released h hrel _ _,
      fun h hrel => runWave_slotBody_released h hrel _ _, fun h => ?peek, fun u lt o k tm th ht hth => ?one⟩,
    fun tm handle o r hr => ?tags, fun tm handle o hr => Team.slotOp_badRing hr o, fun x u lt tm r ht hr => Issue.slotinitOne_zero ht hr⟩
  case peek =>
    refine (computes_runs h).trans (congrArg (fun val => Host.Outcome.next (x.gives 32 val s)) (funext fun lt => ?_))
    cases x.team.ring? (x.a lt 64 % 2 ^ 32) <;> rfl
  case one => exact ⟨Issue.slotOne_waits ht hth k, fun tm' v => Issue.slotOne_gives ht hth k⟩
  case tags =>
    refine ⟨?_, ?_, ?_, ?_, ?_, ?_, ?_, ?_, ?_⟩
    · rintro n rfl hn
      exact Team.slotOp_status hr ((SlotOp.next_res ..).trans (if_pos hn))
    · rintro n rfl h0 hn hs hl
      exact Team.slotOp_tag hr ((SlotOp.next_res ..).trans ((if_neg (by omega)).trans (if_pos ⟨hs, hl⟩)))
    · rintro n rfl h0 hn hs
      exact Team.slotOp_waits hr ((SlotOp.next_res ..).trans ((if_neg (by omega)).trans (if_neg hs)))
    · rintro rfl hs hl
      exact Team.slotOp_tag hr ((SlotOp.next_take ..).trans (if_pos ⟨hs, hl⟩))
    · rintro rfl hs
      exact Team.slotOp_waits hr ((SlotOp.next_take ..).trans (if_neg hs))
    · rintro rfl hs hl
      exact Team.slotOp_tag hr ((SlotOp.next_done ..).trans (if_pos ⟨hs, hl⟩))
    · rintro rfl hs hl
      exact Team.slotOp_tag hr ((SlotOp.next_fill ..).trans (if_pos ⟨hs, hl⟩))
    · rintro rfl hs
      exact Team.slotOp_status hr ((SlotOp.next_done ..).trans (if_neg hs))
    · rintro rfl hs
      exact Team.slotOp_status hr ((SlotOp.next_fill ..).trans (if_neg hs))
end
section
/-! PROOFS. What a grant of a lease leaves, where home slices recall nothing: threads, clocks, polders, and every byte of a polder's
addresses (R51, R52, R87). -/

namespace Sys2Proof.Machine

/-- Teams, clocks, polders, messages and holders are as before, and so is each byte from 2^48 on, where polders have theirs. -/
structure State.LeavesPolders (s u : State) : Prop where
  teams : u.teams = s.teams
  cycles : u.cycles = s.cycles
  polders : u.polders = s.polders
  msgs : u.msgs = s.msgs
  holders : u.holders = s.holders
  read : ∀ a, 2 ^ 48 ≤ a → Memory.read u.mem a = Memory.read s.mem a

theorem State.LeavesPolders.refl (s : State) : s.LeavesPolders s := ⟨rfl, rfl, rfl, rfl, rfl, fun _ _ => rfl⟩

theorem State.LeavesPolders.trans {s u v : State} (h : s.LeavesPolders u) (h' : u.LeavesPolders v) : s.LeavesPolders v :=
  ⟨h'.teams.trans h.teams, h'.cycles.trans h.cycles, h'.polders.trans h.polders, h'.msgs.trans h.msgs,
    h'.holders.trans h.holders, fun a ha => (h'.read a ha).trans (h.read a ha)⟩

theorem State.LeavesPolders.settled {s u : State} (h : s.LeavesPolders u) (hs : s.settled) : u.settled :=
  ⟨h.holders.trans hs.1, h.msgs ▸ hs.2⟩

/-- What holds of one step, from a settled state, holds of several. -/
theorem State.LeavesPolders.foldl {α : Type} {f : State → α → State} (hf : ∀ u a, State.settled u → u.LeavesPolders (f u a)) :
    ∀ (l : List α) {s : State}, s.settled → s.LeavesPolders (l.foldl f s)
  | [], s, _ => .refl s
  | a :: rest, s, hs => (hf s a hs).trans (foldl hf rest ((hf s a hs).settled hs))

/-! ## Evictions -/

theorem State.evict_leavesPolders (s : State) (id : Nat) (freed : Bool) : s.LeavesPolders (s.evict id freed) :=
  ⟨rfl, rfl, rfl, rfl, rfl, fun _ _ => rfl⟩

theorem State.evictionComplete_leavesPolders (s : State) (id : Nat) : s.LeavesPolders (s.evictionComplete id) := by
  unfold State.evictionComplete
  dsimp only
  repeat' split
  all_goals exact ⟨rfl, rfl, rfl, rfl, rfl, fun _ _ => rfl⟩

/-! ## Lines of L2 -/

theorem State.markL2_leavesPolders (s : State) (line : Nat) (filled : BitVec 4) (written : BitVec 128) :
    s.LeavesPolders (s.markL2 line filled written) :=
  ⟨rfl, rfl, rfl, rfl, rfl, fun _ _ => rfl⟩

theorem State.countBypass_leavesPolders (s : State) (line : Nat) : s.LeavesPolders (s.countBypass line) := by
  unfold State.countBypass
  split <;> exact ⟨rfl, rfl, rfl, rfl, rfl, fun _ _ => rfl⟩

section
variable {s : State} (hs : s.settled)
include hs

/-- Where nothing is recalled, making room changes the lines of L2 and the marks of the cycle alone. -/
theorem State.makeRoom_eq_settled (line : Nat) (pin : Bool) : ∃ l2 marks, s.makeRoom line pin = { s with l2 := l2, marks := marks } := by
  unfold State.makeRoom
  dsimp only
  split
  · exact ⟨_, _, rfl⟩
  · split
    · exact ⟨_, _, rfl⟩
    · rw [State.recallNow_settled hs]
      exact iteInduction (motive := fun t : State => ∃ l2 marks, ({ t with l2 := t.l2.filter _ } : State)
        = { s with l2 := l2, marks := marks }) (fun _ => ⟨_, _, rfl⟩) fun _ => ⟨_, _, rfl⟩

theorem State.pinL2_leavesPolders (line : Nat) : s.LeavesPolders (s.pinL2 line) := by
  obtain ⟨l2, marks, h⟩ := State.makeRoom_eq_settled hs line true
  unfold State.pinL2
  split
  · exact .refl s
  · rw [h]
    exact ⟨rfl, rfl, rfl, rfl, rfl, fun _ _ => rfl⟩

theorem State.useL2_leavesPolders (line : Nat) (filled : BitVec 4) (written : BitVec 128) :
    s.LeavesPolders (s.useL2 line filled written) := by
  obtain ⟨l2, marks, h⟩ := State.makeRoom_eq_settled hs line false
  unfold State.useL2
  split
  · exact s.markL2_leavesPolders line filled written
  · split
    · exact .refl s
    · rw [h]
      exact ⟨rfl, rfl, rfl, rfl, rfl, fun _ _ => rfl⟩

theorem State.homeLine_leavesPolders (cells : List Host.Cell) (line : Nat) : s.LeavesPolders (s.homeLine cells line) := by
  have hc := s.countBypass_leavesPolders line
  unfold State.homeLine State.forceRecall
  rw [State.recallNow_settled hs]
  exact hc.trans (State.useL2_leavesPolders (hc.settled hs) _ _ _)

/-- A write below the polders' addresses. -/
theorem State.homeWrite_leavesPolders {cells : List Host.Cell} (hc : ∀ c ∈ cells, c.1 < 2 ^ 48) :
    s.LeavesPolders (s.homeWrite cells) := by
  have h := State.LeavesPolders.foldl (fun u l hu => State.homeLine_leavesPolders hu cells l)
    (distinct (cells.map fun c => lineOf c.1)) hs
  refine h.trans ⟨rfl, rfl, rfl, rfl, rfl, fun a ha => ?_⟩
  have hnone : lastWrite cells a = none := by
    cases hl : lastWrite cells a with
    | none => rfl
    | some b => exact absurd (hc _ (mem_of_lastWrite hl)) (Nat.not_lt.mpr ha)
  show Memory.read (Memory.write _ cells) a = _
  rw [Memory.read_write, hnone]
  rfl

end

/-! ## The leaf entries of a window -/

/-- A leaf entry lies in GDDR 7, or in the table that begins in its last page (R9, R10). -/
theorem State.leafAddr_lt {s : State} {c : Context} {va p : Nat} (h : s.leafAddr c va = some p) : p + 8 ≤ 2 ^ 48 := by
  unfold State.leafAddr at h
  dsimp only at h
  split at h
  · cases h
  · split at h
    · cases h
    next hmid =>
      rw [← Option.some.inj h]
      have hlt : bits va 16 13 < 2 ^ 13 := Nat.mod_lt _ (by decide)
      have := Nat.lt_of_not_le fun hge => hmid (.inr (.inr hge))
      unfold paLimit at this
      omega

/-- The device writes the leaf entry of a window's page, if its table is there (R87). -/
theorem State.writeLeaf_leavesPolders {s : State} (hs : s.settled) (c : Context) (va leaf : Nat) :
    s.LeavesPolders (match s.leafAddr c va with
      | some p => s.homeWrite (cellsAt p (toBytes 8 leaf))
      | none => s) := by
  split
  next p hp =>
    refine State.homeWrite_leavesPolders hs fun x hx => ?_
    rw [cellsAt_toBytes] at hx
    obtain ⟨k, hk, rfl⟩ := List.mem_map.mp hx
    have := State.leafAddr_lt hp
    have := List.mem_range.mp hk
    dsimp only
    omega
  next => exact .refl s

/-! ## The grant -/

/-- A state with one more polder, whose bytes are cleared. -/
def State.addPolder (s : State) (q : Polder) : State := { s.discardPolder q.id with polders := s.polders ++ [q] }

/-- A grant adds a polder that starts now; its evictions come before, its pins and its leaf entries after (R87). -/
theorem State.leaseGrant_spec {s : State} (hs : s.settled) (c : Context) (die n life id a : Nat) (vs : List Nat) :
    ∃ u, s.LeavesPolders u ∧
      (u.addPolder ⟨id, c.num, n, die, u.now die, life, a⟩).LeavesPolders (s.leaseGrant c die n life id a vs) := by
  let v := vs.foldl (fun s v => s.evict v false) s
  let u := ((v.parcels.filter (·.state == .evicting)).map (·.id)).foldl State.evictionComplete v
  let w := u.addPolder ⟨id, c.num, n, die, u.now die, life, a⟩
  have hv : s.LeavesPolders v := .foldl (fun u v _ => u.evict_leavesPolders v false) vs hs
  have hu : s.LeavesPolders u := hv.trans (.foldl (fun u v _ => u.evictionComplete_leavesPolders v) _ (hv.settled hs))
  have hw : w.settled := hu.settled hs
  have hpins := State.LeavesPolders.foldl
    (fun u l hu => (State.pinL2_leavesPolders hu l).trans (State.markL2_leavesPolders _ l 15 0)) (iota (2 ^ 41 + id * 2 ^ 21) n) hw
  have hleaves := State.LeavesPolders.foldl
    (fun u k hu => State.writeLeaf_leavesPolders hu c (c.pwBase.toNat + (a + k) * 2 ^ 16) (polderLeaf id k))
    (iota 0 (polderPages n)) (hpins.settled hw)
  exact ⟨u, hu, hpins.trans (hleaves.trans ⟨rfl, rfl, rfl, rfl, rfl, fun _ _ => rfl⟩)⟩

/-! ## The identifier of a new polder (R86) -/

theorem firstFree_go (l : List Nat) : ∀ fuel k, firstFree.go l fuel k ∉ l ∨ ∀ i, i < fuel → k + i ∈ l
  | 0, _ => .inr fun _ hi => absurd hi (Nat.not_lt_zero _)
  | fuel + 1, k => by
    unfold firstFree.go
    split
    next hk =>
      refine (firstFree_go l fuel (k + 1)).imp_right fun h i hi => ?_
      cases i with
      | zero => simpa using hk
      | succ i => rw [← Nat.succ_add_eq_add_succ]; exact h i (Nat.lt_of_succ_lt_succ hi)
    next hk => exact .inl (by simpa using hk)

/-- The number that a list leaves free is not in it: the list is too short to hold all that are tried. -/
theorem firstFree_not_mem (l : List Nat) (lo : Nat) : firstFree l lo ∉ l := by
  refine (firstFree_go l (l.length + 1) lo).resolve_right fun h => ?_
  have hsub : List.range' lo (l.length + 1) ⊆ l := fun k hk => by
    obtain ⟨i, hi, rfl⟩ := List.mem_range'.mp hk
    simpa using h i hi
  have hlen := List.Nodup.length_le_of_subset (List.nodup_range' (step := 1)) hsub
  rw [List.length_range'] at hlen
  omega

/-- A lease that passes its checks takes an identifier that no polder has. -/
theorem State.leaseCheck_id {s : State} {c : Context} {n life id a : Nat} {vs : List Nat} (h : s.leaseCheck c n life = .ok (id, a, vs)) :
    ∀ p ∈ s.polders, p.id ≠ id := by
  have hid : id = firstFree (s.polders.map (·.id)) 0 := by
    unfold State.leaseCheck at h
    dsimp only at h
    repeat' (first | contradiction | split at h)
    exact (Prod.mk.inj (Except.ok.inj h)).1.symm
  intro p hp hpid
  exact firstFree_not_mem (s.polders.map (·.id)) 0 (hid ▸ hpid ▸ List.mem_map_of_mem hp)

end Sys2Proof.Machine
end
section
/-! PROOFS. LEASE, UNLEASE, and the end of a lease at the PAC and at the home slices (R86 to R90). -/

namespace Sys2Proof.Machine

/-! ## The end of a lease (R90) -/

/-- A lease that ends at the PAC is no polder any more, and the home slices are to apply its end. -/
theorem State.endLease_spec (u : State) (p : Polder) : (∀ q ∈ (u.endLease p).polders, q.id ≠ p.id) ∧ (u.endLease p).mem = u.mem ∧
    ⟨p.id, p.ctx, p.lines, []⟩ ∈ (u.endLease p).ending :=
  ⟨fun q hq => by simpa using (List.mem_filter.mp hq).2, rfl, List.mem_append_right _ (List.mem_singleton.mpr rfl)⟩

/-- A polder that is discarded is gone with its bytes, and no other byte changes. -/
theorem State.discardPolder_spec (u : State) (id : Nat) : (∀ q ∈ (u.discardPolder id).ending, q.id ≠ id) ∧
    (∀ o, o < 2 ^ 28 → Memory.read (u.discardPolder id).mem (2 ^ 48 + id * 2 ^ 28 + o) = 0) ∧
    ∀ b, (b < 2 ^ 48 + id * 2 ^ 28 ∨ 2 ^ 48 + (id + 1) * 2 ^ 28 ≤ b) →
      Memory.read (u.discardPolder id).mem b = Memory.read u.mem b := by
  refine ⟨fun q hq => by simpa using (List.mem_filter.mp hq).2, fun o ho => ?_, fun b hb => ?_⟩
  · exact (Memory.read_clear ..).trans (if_pos (by omega))
  · exact (Memory.read_clear ..).trans (if_neg (by omega))

/-- Which home slices have applied the end, with one more, are all of the 256. -/
theorem EndedLease.all_applied_iff (e : EndedLease) (k : Nat) : ((iota 0 256).all fun i => i == k || e.applied.contains i) = true ↔
    ∀ i, i < 256 → i ≠ k → i ∈ e.applied := by
  rw [List.all_eq_true, iota_eq_range']
  simp only [List.mem_range'_1, Bool.or_eq_true, beq_iff_eq, List.contains_iff_mem, Nat.zero_le, true_and, Nat.zero_add,
    Decidable.or_iff_not_imp_left, ne_eq]

section
variable {u : State} {e : EndedLease} (he : u.ending.find? (·.id == e.id) = some e) (k : Nat)
include he

/-- Whether a home slice is the last of the 256 to apply the end of a lease. -/
theorem State.endSlice_eq : u.endSlice e.id k = if (iota 0 256).all fun i => i == k || e.applied.contains i then u.discardPolder e.id
    else { u with ending := updWhere (·.id == e.id) (fun e => { e with applied := k :: e.applied }) u.ending } := by
  simp only [State.endSlice, he]

/-- The last home slice discards the polder. -/
theorem State.endSlice_last (h : ∀ i, i < 256 → i ≠ k → i ∈ e.applied) : u.endSlice e.id k = u.discardPolder e.id := by
  rw [State.endSlice_eq he, if_pos ((e.all_applied_iff k).mpr h)]

/-- Every other notes that it has applied the end. -/
theorem State.endSlice_other (h : ¬∀ i, i < 256 → i ≠ k → i ∈ e.applied) :
    (u.endSlice e.id k).mem = u.mem ∧ ∀ q ∈ (u.endSlice e.id k).ending, q.id = e.id → k ∈ q.applied := by
  rw [State.endSlice_eq he, if_neg (mt (e.all_applied_iff k).mp h)]
  refine ⟨rfl, fun q hq hid => ?_⟩
  obtain ⟨q', -, rfl⟩ := List.mem_map.mp hq
  by_cases hq' : (q'.id == e.id) = true
  · rw [if_pos hq']
    exact List.mem_cons_self
  · rw [if_neg hq'] at hid
    exact absurd (beq_iff_eq.mpr hid) hq'

end

/-! ## LEASE -/

section
variable {x : Issue} {u : State} {lt : Nat × Thread} {th : Thread} (hth : u.thread? x.team.uid lt.2.tid = some th)
include hth

theorem Issue.leaseOne_ok {id a : Nat} {vs : List Nat} (hs : u.settled) (h : u.leaseCheck x.ctx (x.a lt 32) (x.b lt 64) = .ok (id, a, vs)) :
    (x.leaseOne u lt).polders = u.polders ++ [⟨id, x.ctx.num, x.a lt 32, x.team.die, u.now x.team.die, x.b lt 64, a⟩] ∧
      (∀ o, o < 2 ^ 28 → Memory.read (x.leaseOne u lt).mem (2 ^ 48 + id * 2 ^ 28 + o) = 0) ∧
      (x.leaseOne u lt).holdsResult x.team.uid lt.2.tid (x.dst lt) 64 (x.ctx.pwBase.toNat + a * 2 ^ 16 + id) := by
  obtain ⟨v, hv, hg⟩ := State.leaseGrant_spec hs x.ctx x.team.die (x.a lt 32) (x.b lt 64) id a vs
  have hone : x.leaseOne u lt = x.give lt 64 (x.ctx.pwBase.toNat + a * 2 ^ 16 + id)
      (u.leaseGrant x.ctx x.team.die (x.a lt 32) (x.b lt 64) id a vs) := by
    simp only [Issue.leaseOne, h]
  have hnow : v.now x.team.die = u.now x.team.die := by simp only [State.now, hv.cycles]
  have hteams : (u.leaseGrant x.ctx x.team.die (x.a lt 32) (x.b lt 64) id a vs).teams = u.teams := hg.teams.trans hv.teams
  obtain ⟨-, hzero, -⟩ := v.discardPolder_spec id
  rw [hone]
  refine ⟨?_, fun o ho => ?_, Issue.give_holdsResult (th := th) ?_ _ _⟩
  · rw [Issue.give_polders, hg.polders, State.addPolder, hv.polders, hnow]
  · rw [Issue.give_mem, hg.read _ (by omega)]
    exact hzero o ho
  · unfold State.thread? State.team? at hth ⊢
    rwa [hteams]

theorem Issue.leaseOne_error {w : Nat} (h : u.leaseCheck x.ctx (x.a lt 32) (x.b lt 64) = .error w) :
    (x.leaseOne u lt).polders = u.polders ∧ (x.leaseOne u lt).holdsResult x.team.uid lt.2.tid (x.dst lt) 64 w := by
  have hone : x.leaseOne u lt = x.give lt 64 w u := by simp only [Issue.leaseOne, h]
  rw [hone]
  exact ⟨Issue.give_polders .., Issue.give_holdsResult hth 64 w⟩

/-! ## UNLEASE -/

theorem Issue.unleaseOne_some {p : Polder} (h : u.polder? x.grid.ctx (x.a lt 32) = some p) :
    (∀ q ∈ (x.unleaseOne u lt).polders, q.id ≠ p.id) ∧ (x.unleaseOne u lt).mem = u.mem ∧
      ⟨p.id, p.ctx, p.lines, []⟩ ∈ (x.unleaseOne u lt).ending ∧
      (x.unleaseOne u lt).holdsResult x.team.uid lt.2.tid (x.dst lt) 32 0 := by
  have hone : x.unleaseOne u lt = x.give lt 32 0 (u.endLease p) := by simp only [Issue.unleaseOne, h]
  obtain ⟨hgone, hmem, hending⟩ := u.endLease_spec p
  rw [hone, Issue.give_polders, Issue.give_mem, Issue.give_ending]
  exact ⟨hgone, hmem, hending, Issue.give_holdsResult (s := u.endLease p) hth 32 0⟩

theorem Issue.unleaseOne_none (h : u.polder? x.grid.ctx (x.a lt 32) = none) :
    (x.unleaseOne u lt).polders = u.polders ∧ (x.unleaseOne u lt).holdsResult x.team.uid lt.2.tid (x.dst lt) 32 (statusWord 0x0B 0) := by
  have hone : x.unleaseOne u lt = x.give lt 32 (statusWord 0x0B 0) u := by simp only [Issue.unleaseOne, h]
  rw [hone]
  exact ⟨Issue.give_polders .., Issue.give_holdsResult hth 32 _⟩

end

end Sys2Proof.Machine
end

section
open Sys2Proof Sys2Proof.Machine

/-- Settles O44: a grant's evictions, pins and leaf entries lie outside the polders' addresses, which it has cleared; the end of a
lease is noted at the PAC, and its last home slice clears the addresses. -/
theorem polderInstructions : Obligations.PolderInstructions := by
  refine ⟨fun s f x => ⟨plain_runs, plain_runs, fun h => ?lstat, fun u lt th hth _ => ⟨fun id a vs hh hm hc => ?grant,
      fun w hc => Issue.leaseOne_error hth hc, fun p hp => Issue.unleaseOne_some hth hp, fun hp => Issue.unleaseOne_none hth hp⟩⟩,
    fun u p hp => ⟨fun hdue => ?expires, fun hlive => ?lives⟩,
    fun u e k _ he => ⟨fun hlast => ?last, fun hlast => State.endSlice_other he k hlast⟩⟩
  case lstat =>
    refine (computes_runs h).trans (congrArg (fun val => Host.Outcome.next (x.gives 64 val s)) (funext fun lt => ?_))
    rw [h.s]
    cases s.polder? x.grid.ctx (x.a lt 32) with
    | none => rfl
    | some p => simp only [State.leaseDue, decide_eq_true_eq]; rfl
  case grant =>
    obtain ⟨hpolders, hzero, hresult⟩ := Issue.leaseOne_ok hth ⟨hh, hm⟩ hc
    exact ⟨⟨_, hpolders, rfl, State.leaseCheck_id hc, rfl, rfl, rfl, rfl, rfl⟩, hzero, hresult⟩
  case expires =>
    have h : u.leaseExpiry p.id = u.endLease p := by simp only [State.leaseExpiry, hp, State.leaseDue, decide_eq_true hdue, if_true]
    rw [h]
    exact u.endLease_spec p
  case lives =>
    simp only [State.leaseExpiry, hp, State.leaseDue, decide_eq_false (Nat.not_le.mpr hlive), Bool.false_eq_true, if_false]
  case last =>
    rw [State.endSlice_last he k hlast]
    exact u.discardPolder_spec e.id
end
